-- ==== Sys2Proof/Word.lean ====
section
/-! DEFINITION. The words of the hardware at the widths the spec gives them, and its closed lists of names. -/

namespace Sys2Proof

/-- A duration field: DUR_W = 24 bits, one count is one microsecond (00_scope.md R7). -/
abbrev Duration := BitVec 24

/-- A packed Symbol word: SYM_W = 50 bits (30_encoding.md R80). -/
abbrev SymWord := BitVec 50

/-- The frame buffer FB: FRAME_CAP = 64 Symbol words (10_state.md R32). -/
abbrev FrameBuffer := Vector SymWord 64

/-- The six 16-bit entries of one codeset row, entry k for the Command with code k (10_state.md R30). -/
abbrev Codeset := Vector (BitVec 16) 6

/-- A timeout or a timer: TO_W = 32 bits, in ticks (43_dispatch_fifo.md R171). -/
abbrev Ticks := BitVec 32

/-- CFG.VARIANT: code 0 is the standard timing, code 1 the variant timing (10_state.md R29). -/
inductive Variant where
  | standard
  | variant
  deriving DecidableEq, Repr

/-- The six logical Commands, in the order of their codes 0 to 5 (30_encoding.md R92).
The reserved codes 6 and 7 have no constructor: no operation produces them (93_implementation_defined.md U15). -/
inductive Command where
  | playPause
  | previous
  | next
  | mute
  | volumeUp
  | volumeDown
  deriving DecidableEq, Repr

/-- The outcomes, in the order of their codes 0 to 9 (60_exceptions.md R230).
The reserved codes 10 to 15 have no constructor: they are never produced. -/
inductive OutcomeCode where
  | none
  | dispatched
  | repeatIgnored
  | errUnsupportedLength
  | errBitMismatch
  | errChecksumFailed
  | resolveMiss
  | dispatchTimeout
  | captureTimeout
  | configError
  deriving DecidableEq, Repr

/-- The decode-loop states, in the order of their codes 0 to 6 (10_state.md R24). Code 7 is unused and unreachable. -/
inductive Fsm where
  | init
  | wait
  | decode
  | resolve
  | push
  | rearm
  | halt
  deriving DecidableEq, Repr

/-- The status of the capture handoff, in the order of its codes 0 to 2 (10_state.md R26). Code 3 is unused. -/
inductive Slot where
  | idle
  | armed
  | full
  deriving DecidableEq, Repr

/-- The kind of a Frame, selected by its symbol count (30_encoding.md R83). -/
inductive FrameKind where
  | normal
  | repeated
  | unsupported
  deriving DecidableEq, Repr

/-- DecodeResult of 41_frame_decoder.md section 1. -/
inductive DecodeResult where
  | normal (address : BitVec 16) (command : BitVec 8)
  | repeated
  | unsupportedLength
  | bitMismatch
  | checksumFailed
  deriving DecidableEq, Repr

end Sys2Proof
end

