-- ==== Sys2Proof/Config.lean ====
section
/-! DEFINITION. The constants the source fixes (00_scope.md R6), the parameters the spec decides (R7) and the rows of
CODESET_TABLE. The OPEN parameters of R7 are no constants here: they are fields of State (log entries 2 and 3), so that a
statement about every state holds for all their values. -/

namespace Sys2Proof.Config

/-- N_NORMAL. -/
abbrev nNormal : Nat := 34

/-- N_REPEAT. -/
abbrev nRepeat : Nat := 2

/-- TOL, the tolerance around each nominal duration, in microseconds. -/
abbrev tol : Nat := 150

/-- LEAD_MARK[v]. -/
def leadMark : Variant → Nat
  | .standard => 9000
  | .variant => 4500

/-- LEAD_SPACE[v]. -/
def leadSpace : Variant → Nat
  | .standard => 4500
  | .variant => 4500

/-- RPT_MARK[v]. -/
def rptMark : Variant → Nat
  | .standard => 9000
  | .variant => 2250

/-- RPT_SPACE[v]. -/
def rptSpace : Variant → Nat
  | .standard => 2250
  | .variant => 2250

/-- BIT_MARK, the mark of a zero bit and of a one bit. -/
abbrev bitMark : Nat := 562

/-- ZERO_SPACE. -/
abbrev zeroSpace : Nat := 562

/-- ONE_SPACE. -/
abbrev oneSpace : Nat := 1675

/-- ADDR_BITS and WORD_BITS: both fields of a Normal frame have sixteen data symbols. -/
abbrev fieldBits : Nat := 16

/-- Index of the first address symbol (20_memory.md R51). -/
abbrev addrBase : Nat := 1

/-- Index of the first raw-command-word symbol (20_memory.md R51). -/
abbrev wordBase : Nat := 17

/-- FIFO_DEPTH, the reference value 16 (43_dispatch_fifo.md R170). -/
abbrev fifoDepth : Nat := 16

/-- FRAME_CAP (decided, D8). -/
abbrev frameCap : Nat := 64

/-- CAP_MIN, an obligation on the host; no operation reads it (70_reset_and_hazards.md R266). -/
abbrev capMin : Nat := 1250

/-- CAP_MAX, an obligation on the host; no operation reads it (70_reset_and_hazards.md R266). -/
abbrev capMax : Nat := 12000000

/-- The NEC parser tag; values 1 to 255 are reserved (30_encoding.md R93). -/
abbrev necTag : BitVec 8 := 0

/-- One row of CODESET_TABLE: the parser tag and the six entries (10_state.md R34). -/
structure CodesetRow where
  tag : BitVec 8
  entries : Codeset
  deriving DecidableEq, Repr

/-- T0, the test codeset of 95_test_vectors.md section 0. Its first entry is the source's, the other five are the
spec's invention for testing. -/
def t0 : CodesetRow :=
  { tag := 0, entries := #v[0xF20D, 0xE11E, 0xD22D, 0xC33C, 0xB44B, 0xA55A] }

end Sys2Proof.Config
end

