-- ==== Sys2Proof/Syntax.lean ====
section
/-! DEFINITION. The operations of the hardware, one constructor per row of spec/opcode_table.json in the table's order
(30_encoding.md R95), and the operation word they are written in. -/

namespace Sys2Proof

/-- The five nominal values a duration is ever compared with (30_encoding.md R85). -/
inductive Nominal where
  | n562
  | n1675
  | n2250
  | n4500
  | n9000
  deriving DecidableEq, Repr

/-- One operation with its operands. An operand that the spec takes from a register (CFG.VARIANT, FB, CS_ACTIVE, Q,
PEND_CMD) is read from the state and is no argument here. -/
inductive Instr where
  /-- IN_WIN(d, n), R110 -/
  | inWin (d : Duration) (n : Nominal)
  /-- MATCH(s, M, S), R111 -/
  | matchSym (s : SymWord) (mark space : Nominal)
  /-- MATCH_LEAD(s, CFG.VARIANT), R112 -/
  | matchLead (s : SymWord)
  /-- MATCH_RPT(s, CFG.VARIANT), R113 -/
  | matchRpt (s : SymWord)
  /-- MATCH_ZERO(s), R114 -/
  | matchZero (s : SymWord)
  /-- MATCH_ONE(s), R115 -/
  | matchOne (s : SymWord)
  /-- CLASSIFY_BIT(s), R116 -/
  | classifyBit (s : SymWord)
  /-- CLASSIFY_LENGTH(n), R130 -/
  | classifyLength (n : BitVec 7)
  /-- DECODE((n, FB), CFG.VARIANT), R131 -/
  | decodeFrame (n : BitVec 7)
  /-- DECODE_NORMAL((34, FB), CFG.VARIANT), R133 -/
  | decodeNormal
  /-- ASSEMBLE16(FB, base), R134 -/
  | assemble16 (base : BitVec 7)
  /-- CHECKSUM(W), R135 -/
  | checksum (w : BitVec 16)
  /-- DECODE_REPEAT((2, FB), CFG.VARIANT), R138 -/
  | decodeRepeat
  /-- KEY(E), R160 -/
  | key (e : BitVec 16)
  /-- RESOLVE(CS_ACTIVE, c), R161 -/
  | resolve (c : BitVec 8)
  /-- CODESET_OK(idx), R163 -/
  | codesetOk (idx : Nat)
  /-- PUSH_OK(cmd), R174 -/
  | pushOk (cmd : BitVec 3)
  /-- PUSH_TIMEOUT(cmd), R176 -/
  | pushTimeout (cmd : BitVec 3)
  /-- POP_OK(), R177 -/
  | popOk
  /-- POP_EMPTY(), R178 -/
  | popEmpty
  /-- INIT, R200 -/
  | init
  /-- ARM, R209 -/
  | arm
  /-- CAPTURE_DELIVER(f), R201; the count of f is the length of the list -/
  | captureDeliver (f : List SymWord)
  /-- TAKE_FRAME, R202 -/
  | takeFrame
  /-- WAIT_EXPIRE, R203 -/
  | waitExpire
  /-- RUN_DECODE, R204 -/
  | runDecode
  /-- RUN_RESOLVE, R205 -/
  | runResolve
  /-- RUN_PUSH, R206 -/
  | runPush
  /-- REARM, R207 -/
  | rearm
  /-- HALTED, R208 -/
  | halted
  /-- SYMBOL_WORD, R80 -/
  | symbolWord (s : SymWord)
  /-- CODESET_ENTRY, R91 -/
  | codesetEntry (e : BitVec 16)
  /-- RAW_COMMAND_WORD, R89 -/
  | rawCommandWord (w : BitVec 16)
  /-- COMMAND_CODE, R92 -/
  | commandCode (c : BitVec 3)
  /-- OUTCOME_CODE, R230 -/
  | outcomeCode (o : BitVec 4)
  deriving DecidableEq, Repr

/-- An operation word. `opnd` holds the bits of the row of spec/opcode_table.json from bit 0 up; the operands the table
gives no bits (the nominal constants of IN_WIN and MATCH) stand above them. `sel` is the row's number in the table,
counted from 1: the table's bit strings overlap and most rows are "not selected by a bit pattern", so the caller's choice
is written out (DESIGN CHOICE, log entry 4). `frame` holds the Symbol words of a delivered Frame and is empty elsewhere. -/
structure Code where
  sel : BitVec 8
  opnd : BitVec 56
  frame : List SymWord
  deriving DecidableEq, Repr

end Sys2Proof
end

