-- ==== Sys2Proof/WellFormed.lean ====
section
/-! DEFINITION. What an operand must satisfy for an operation to be one of the hardware's. -/

namespace Sys2Proof

/-- The well-formed operations: a frame count is at most FRAME_CAP (30_encoding.md R82, U9); sixteen data symbols from
`base` lie inside FB (20_memory.md R56); a codeset index fits its operand field (log entry 3); Command codes 6 and 7 and
outcome codes 10 to 15 are reserved (R92, R230, U15). -/
def Instr.wellFormed : Instr → Bool
  | .inWin _ _ => true
  | .matchSym _ _ _ => true
  | .matchLead _ => true
  | .matchRpt _ => true
  | .matchZero _ => true
  | .matchOne _ => true
  | .classifyBit _ => true
  | .classifyLength n => decide (n.toNat ≤ Config.frameCap)
  | .decodeFrame n => decide (n.toNat ≤ Config.frameCap)
  | .decodeNormal => true
  | .assemble16 base => decide (base.toNat + Config.fieldBits ≤ Config.frameCap)
  | .checksum _ => true
  | .decodeRepeat => true
  | .key _ => true
  | .resolve _ => true
  | .codesetOk idx => decide (idx < 2 ^ 56)
  | .pushOk cmd => decide (cmd.toNat < 6)
  | .pushTimeout cmd => decide (cmd.toNat < 6)
  | .popOk => true
  | .popEmpty => true
  | .init => true
  | .arm => true
  | .captureDeliver f => decide (f.length ≤ Config.frameCap)
  | .takeFrame => true
  | .waitExpire => true
  | .runDecode => true
  | .runResolve => true
  | .runPush => true
  | .rearm => true
  | .halted => true
  | .symbolWord _ => true
  | .codesetEntry _ => true
  | .rawCommandWord _ => true
  | .commandCode c => decide (c.toNat < 6)
  | .outcomeCode o => decide (o.toNat < 10)

end Sys2Proof
end

