-- ==== Sys2Proof/Decode.lean ====
section
/-! DEFINITION. The decoder: from a word to an operation or a named rejection, total on every word; after it the encoder,
written from the same tables; and the reading of a bare word of spec/opcode_table.json. The codes of the enumerations stand
here too. -/

namespace Sys2Proof

/-! ### Codes of the enumerations -/

/-- FSM codes, 10_state.md R24. -/
def fsmCode : Fsm → BitVec 3
  | .init => 0
  | .wait => 1
  | .decode => 2
  | .resolve => 3
  | .push => 4
  | .rearm => 5
  | .halt => 6

/-- SLOT codes, 10_state.md R26. -/
def slotCode : Slot → BitVec 2
  | .idle => 0
  | .armed => 1
  | .full => 2

/-- Command codes, 30_encoding.md R92. -/
def commandCode : Command → BitVec 3
  | .playPause => 0
  | .previous => 1
  | .next => 2
  | .mute => 3
  | .volumeUp => 4
  | .volumeDown => 5

/-- The Command with a code; none for the reserved codes 6 and 7 (30_encoding.md R92). -/
def commandOfCode (c : BitVec 3) : Option Command :=
  match c.toNat with
  | 0 => some .playPause
  | 1 => some .previous
  | 2 => some .next
  | 3 => some .mute
  | 4 => some .volumeUp
  | 5 => some .volumeDown
  | _ => none

/-- Outcome codes, 60_exceptions.md R230. -/
def outcomeCode : OutcomeCode → BitVec 4
  | .none => 0
  | .dispatched => 1
  | .repeatIgnored => 2
  | .errUnsupportedLength => 3
  | .errBitMismatch => 4
  | .errChecksumFailed => 5
  | .resolveMiss => 6
  | .dispatchTimeout => 7
  | .captureTimeout => 8
  | .configError => 9

/-- The outcome with a code; none for the reserved codes 10 to 15 (60_exceptions.md R230). -/
def outcomeOfCode (o : BitVec 4) : Option OutcomeCode :=
  match o.toNat with
  | 0 => some .none
  | 1 => some .dispatched
  | 2 => some .repeatIgnored
  | 3 => some .errUnsupportedLength
  | 4 => some .errBitMismatch
  | 5 => some .errChecksumFailed
  | 6 => some .resolveMiss
  | 7 => some .dispatchTimeout
  | 8 => some .captureTimeout
  | 9 => some .configError
  | _ => none

/-- The code of a nominal constant in an operation word (DESIGN CHOICE, log entry 4: the table gives it no bits). -/
def nominalCode : Nominal → BitVec 3
  | .n562 => 0
  | .n1675 => 1
  | .n2250 => 2
  | .n4500 => 3
  | .n9000 => 4

/-- The nominal constant with a code; the codes 5 to 7 name none. -/
def nominalOfCode (c : BitVec 3) : Option Nominal :=
  match c.toNat with
  | 0 => some .n562
  | 1 => some .n1675
  | 2 => some .n2250
  | 3 => some .n4500
  | 4 => some .n9000
  | _ => none

/-! ### The decoder -/

/-- Why a word is no operation. -/
inductive DecodeError where
  /-- the selector is no row of the table -/
  | unknownSelector
  /-- the bits the table fixes for the row have other values -/
  | fixedBitsWrong
  /-- a bit above the row's operand is set -/
  | strayBits
  /-- Symbol words follow an operation that takes none -/
  | strayFrame
  /-- a nominal code 5 to 7 -/
  | reservedNominal
  /-- a Command code 6 or 7 (R92) -/
  | reservedCommand
  /-- an outcome code 10 to 15 (R230) -/
  | reservedOutcome
  /-- a symbol count above FRAME_CAP (R82) -/
  | countOutsideContract
  /-- sixteen symbols from this base leave FB (R56) -/
  | baseOutsideBuffer
  /-- a delivered Frame of more than FRAME_CAP symbols (R82) -/
  | frameTooLong
  /-- the FSM code 7 (R24) -/
  | reservedFsm
  /-- FSM is S_WAIT and SLOT is neither ARMED nor FULL: no operation is selected -/
  | nothingSelected
  deriving DecidableEq, Repr

/-- The `n` bits of an operand from bit `lo` up. -/
def operandField (w : BitVec 56) (lo n : Nat) : BitVec n := w.extractLsb' lo n

/-- No bit at position `n` or above is set. -/
def operandFits (w : BitVec 56) (n : Nat) : Bool := decide (w.toNat < 2 ^ n)

/-- An operation whose operand is the low `n` bits. -/
def decodeLow (n : Nat) (w : BitVec 56) (mk : BitVec n → Instr) : Except DecodeError Instr :=
  if operandFits w n then .ok (mk (operandField w 0 n)) else .error .strayBits

/-- An operation with no operand, whose bits the table fixes. -/
def decodeFixed (w : BitVec 56) (pattern : Nat) (i : Instr) : Except DecodeError Instr :=
  if w.toNat = pattern then .ok i else .error .fixedBitsWrong

/-- Reject an ill-formed operation under a name. -/
def rejectUnless (e : DecodeError) (r : Except DecodeError Instr) : Except DecodeError Instr :=
  match r with
  | .ok i => if i.wellFormed then .ok i else .error e
  | .error e' => .error e'

/-- The rows but CAPTURE_DELIVER, by their number in the table. -/
def decodeOperand (sel : Nat) (w : BitVec 56) : Except DecodeError Instr :=
  match sel with
  | 1 =>
    if operandFits w 27 then
      match nominalOfCode (operandField w 24 3) with
      | some n => .ok (.inWin (operandField w 0 24) n)
      | none => .error .reservedNominal
    else .error .strayBits
  | 2 =>
    match nominalOfCode (operandField w 50 3), nominalOfCode (operandField w 53 3) with
    | some m, some sp => .ok (.matchSym (operandField w 0 50) m sp)
    | _, _ => .error .reservedNominal
  | 3 => decodeLow 50 w .matchLead
  | 4 => decodeLow 50 w .matchRpt
  | 5 => decodeLow 50 w .matchZero
  | 6 => decodeLow 50 w .matchOne
  | 7 => decodeLow 50 w .classifyBit
  | 8 => rejectUnless .countOutsideContract (decodeLow 7 w .classifyLength)
  | 9 => rejectUnless .countOutsideContract (decodeLow 7 w .decodeFrame)
  | 10 => decodeFixed w 0b0100010 .decodeNormal
  | 11 => rejectUnless .baseOutsideBuffer (decodeLow 7 w .assemble16)
  | 12 => decodeLow 16 w .checksum
  | 13 => decodeFixed w 0b0000010 .decodeRepeat
  | 14 => decodeLow 16 w .key
  | 15 => decodeLow 8 w .resolve
  | 16 => .ok (.codesetOk w.toNat)
  | 17 => rejectUnless .reservedCommand (decodeLow 3 w .pushOk)
  | 18 => rejectUnless .reservedCommand (decodeLow 3 w .pushTimeout)
  | 19 => decodeFixed w 0b1 .popOk
  | 20 => decodeFixed w 0b1 .popEmpty
  | 21 => decodeFixed w 0b000 .init
  | 22 => decodeFixed w 0b000 .arm
  | 24 => decodeFixed w 0b001 .takeFrame
  | 25 => decodeFixed w 0b001 .waitExpire
  | 26 => decodeFixed w 0b010 .runDecode
  | 27 => decodeFixed w 0b011 .runResolve
  | 28 => decodeFixed w 0b100 .runPush
  | 29 => decodeFixed w 0b101 .rearm
  | 30 => decodeFixed w 0b110 .halted
  | 31 => decodeLow 50 w .symbolWord
  | 32 => decodeLow 16 w .codesetEntry
  | 33 => decodeLow 16 w .rawCommandWord
  | 34 => rejectUnless .reservedCommand (decodeLow 3 w .commandCode)
  | 35 => rejectUnless .reservedOutcome (decodeLow 4 w .outcomeCode)
  | _ => .error .unknownSelector

/-- The decoder of operation words. CAPTURE_DELIVER (row 23, slot code 0b01) is the one row with Symbol words after it. -/
def decode (c : Code) : Except DecodeError Instr :=
  if c.sel.toNat = 23 then
    rejectUnless .frameTooLong (decodeFixed c.opnd 0b01 (.captureDeliver c.frame))
  else if c.frame.isEmpty then decodeOperand c.sel.toNat c.opnd
  else .error .strayFrame

/-- The hardware's own selection of the decoder's operation: by the FSM code, in S_WAIT by the SLOT code too
(30_encoding.md R95, 44_decode_loop.md R211). -/
def decodeFsm (fsm : BitVec 3) (slot : BitVec 2) : Except DecodeError Instr :=
  match fsm.toNat with
  | 0 => .ok .init
  | 1 =>
    if slot = 0b10 then .ok .takeFrame
    else if slot = 0b01 then .ok .waitExpire
    else .error .nothingSelected
  | 2 => .ok .runDecode
  | 3 => .ok .runResolve
  | 4 => .ok .runPush
  | 5 => .ok .rearm
  | 6 => .ok .halted
  | _ => .error .reservedFsm

/-! ### The encoder -/

/-- The operand bits of an operation. -/
def encodeOperand : Instr → BitVec 56
  | .inWin d n => (nominalCode n ++ d).setWidth 56
  | .matchSym s m sp => nominalCode sp ++ nominalCode m ++ s
  | .matchLead s => s.setWidth 56
  | .matchRpt s => s.setWidth 56
  | .matchZero s => s.setWidth 56
  | .matchOne s => s.setWidth 56
  | .classifyBit s => s.setWidth 56
  | .classifyLength n => n.setWidth 56
  | .decodeFrame n => n.setWidth 56
  | .decodeNormal => 0b0100010
  | .assemble16 base => base.setWidth 56
  | .checksum w => w.setWidth 56
  | .decodeRepeat => 0b0000010
  | .key e => e.setWidth 56
  | .resolve c => c.setWidth 56
  | .codesetOk idx => BitVec.ofNat 56 idx
  | .pushOk cmd => cmd.setWidth 56
  | .pushTimeout cmd => cmd.setWidth 56
  | .popOk => 0b1
  | .popEmpty => 0b1
  | .init => 0b000
  | .arm => 0b000
  | .captureDeliver _ => 0b01
  | .takeFrame => 0b001
  | .waitExpire => 0b001
  | .runDecode => 0b010
  | .runResolve => 0b011
  | .runPush => 0b100
  | .rearm => 0b101
  | .halted => 0b110
  | .symbolWord s => s.setWidth 56
  | .codesetEntry e => e.setWidth 56
  | .rawCommandWord w => w.setWidth 56
  | .commandCode c => c.setWidth 56
  | .outcomeCode o => o.setWidth 56

/-- The number of an operation's row in spec/opcode_table.json, counted from 1. -/
def rowNumber : Instr → BitVec 8
  | .inWin _ _ => 1
  | .matchSym _ _ _ => 2
  | .matchLead _ => 3
  | .matchRpt _ => 4
  | .matchZero _ => 5
  | .matchOne _ => 6
  | .classifyBit _ => 7
  | .classifyLength _ => 8
  | .decodeFrame _ => 9
  | .decodeNormal => 10
  | .assemble16 _ => 11
  | .checksum _ => 12
  | .decodeRepeat => 13
  | .key _ => 14
  | .resolve _ => 15
  | .codesetOk _ => 16
  | .pushOk _ => 17
  | .pushTimeout _ => 18
  | .popOk => 19
  | .popEmpty => 20
  | .init => 21
  | .arm => 22
  | .captureDeliver _ => 23
  | .takeFrame => 24
  | .waitExpire => 25
  | .runDecode => 26
  | .runResolve => 27
  | .runPush => 28
  | .rearm => 29
  | .halted => 30
  | .symbolWord _ => 31
  | .codesetEntry _ => 32
  | .rawCommandWord _ => 33
  | .commandCode _ => 34
  | .outcomeCode _ => 35

/-- The Symbol words that follow an operation word: those of a delivered Frame. -/
def encodeFrame : Instr → List SymWord
  | .captureDeliver f => f
  | _ => []

/-- The operation word of an operation. -/
def encode (i : Instr) : Code :=
  { sel := rowNumber i, opnd := encodeOperand i, frame := encodeFrame i }

/-! ### Bare words of the table -/

/-- The row a bare word of `nbytes` bytes is read as. A bare word does not say on which port it stands (the same bits are
an FSM code, a SLOT code, a count and a command byte), so the model reads it on ONE port of its size (DESIGN CHOICE, log
entry 4): one byte below 8 is an FSM code (code 1 as TAKE_FRAME; code 7 is unused), the byte 34 the count of a Normal
frame, another byte below 128 a frame count, the rest a command byte; two bytes are a raw command word, three a
duration of IN_WIN, seven a Symbol word. -/
def tableRow (nbytes w : Nat) : Option (BitVec 8) :=
  match nbytes with
  | 1 =>
    match w with
    | 0 => some 21
    | 1 => some 24
    | 2 => some 26
    | 3 => some 27
    | 4 => some 28
    | 5 => some 29
    | 6 => some 30
    | 7 => none
    | 34 => some 10
    | _ => if w < 128 then some 8 else some 15
  | 2 => some 33
  | 3 => some 1
  | 7 => some 31
  | _ => none

/-- The operation word of a bare word of the table; a word no port of its size carries has the selector 0, which the
decoder rejects. The bits above the bare word are 0, so a bare duration, which names no nominal n for IN_WIN
(40_timing_classifier.md R110), is tried against code 0, n = 562 (DESIGN CHOICE, log entry 4). -/
def tableCode (nbits w : Nat) : Code :=
  if w < 2 ^ nbits then
    { sel := (tableRow ((nbits + 7) / 8) w).getD 0, opnd := BitVec.ofNat 56 w, frame := [] }
  else { sel := 0, opnd := 0, frame := [] }

/-- What the decoder reads from a bare word of the table. -/
def decodeTableWord (nbits w : Nat) : Option Instr :=
  match decode (tableCode nbits w) with
  | .ok i => some i
  | .error _ => none

end Sys2Proof
end

