-- ==== Sys2Proof/Machine/State.lean ====
section
/-! DEFINITION. The state of the machine as plain data, the inputs the other agents give it, and the ways a step stops. -/

namespace Sys2Proof.Machine

/-- The fields of CFG (10_state.md R29), and the values on the four configuration ports they are latched from.
CODESET_IDX is a natural number because IDX_W is OPEN (log entry 3). -/
structure Cfg where
  variant : Variant
  codesetIdx : Nat
  pushTimeout : Ticks
  captureWait : Ticks
  deriving DecidableEq, Repr

/-- The pop result ports in the state after a step: `low` is pop_done = 0; `hit c` is pop_done = 1, pop_hit = 1,
pop_cmd = c; `empty` is pop_done = 1, pop_hit = 0, where pop_cmd has no value (43_dispatch_fifo.md R177, R178, U11). -/
inductive PopPort where
  | low
  | hit (c : Command)
  | empty
  deriving DecidableEq, Repr

/-- One event of the trace (10_state.md R43). -/
inductive Event where
  | arm
  | deliver (f : List SymWord)
  /-- the code and, where the code implies them, (RES_ADDR, RES_CMD) and PEND_CMD -/
  | outcome (code : OutcomeCode) (res : Option (BitVec 16 × BitVec 8)) (pend : Option Command)
  | pushed (c : Command)
  | pushFailed
  | popped (c : Command)
  | popEmpty
  deriving DecidableEq, Repr

/-- The value an operation returns (00_scope.md R11: Ok/Err, Some/None, a Boolean). -/
inductive Ret where
  | none
  | bool (b : Bool)
  | bit (b : Option Bool)
  | kind (k : FrameKind)
  | decoded (r : DecodeResult)
  | field (x : Option (BitVec 16))
  | byte (b : BitVec 8)
  | command (c : Option Command)
  | symbol (level0 : BitVec 1) (duration0 : Duration) (level1 : BitVec 1) (duration1 : Duration)
  | entry (key low : BitVec 8)
  | rawWord (check command : BitVec 8)
  | outcome (o : OutcomeCode)
  deriving DecidableEq, Repr

/-- What an agent does next. The list of them in State is the total order of 20_memory.md R60 as data (log entry 5). -/
inductive Input where
  /-- an operation, as an operation word -/
  | op (c : Code)
  /-- one tick of clk_d: the decoder's own turn -/
  | clkD
  /-- one tick of clk_c: the consumer side's sample of a pop in progress -/
  | clkC
  /-- one edge of a one-clock build: both turns, ordered by `bothTurns` (43_dispatch_fifo.md R180, log entry 24) -/
  | clkBoth
  /-- a pop_start pulse with the value on pop_timeout (10_state.md R36) -/
  | popStart (timeout : Ticks)
  /-- the host drives the configuration ports (30_encoding.md R96, CONFIG) -/
  | config (ports : Cfg)
  /-- rst_d and rst_c at an edge (70_reset_and_hazards.md R260) -/
  | reset (d c : Bool)
  deriving DecidableEq, Repr

/-- The whole state. The first eleven fields are the tuple of 10_state.md section 1. -/
structure State where
  /-- FSM, R24: this hardware's program counter -/
  fsm : Fsm
  /-- CFG, R29 -/
  cfg : Cfg
  /-- CS_ACTIVE, R30 -/
  csActive : Codeset
  /-- SLOT, R26 -/
  slot : Slot
  /-- FB_COUNT, R32 -/
  fbCount : BitVec 7
  /-- FB, R32 -/
  fb : FrameBuffer
  /-- RES_ADDR, R22 -/
  resAddr : BitVec 16
  /-- RES_CMD, R22 -/
  resCmd : BitVec 8
  /-- PEND_CMD, R23 -/
  pendCmd : Command
  /-- LAST_OUTCOME, R31 -/
  lastOutcome : OutcomeCode
  /-- Q, head first, R33 -/
  q : List Command
  /-- ADDR_SR, R21 -/
  addrSr : BitVec 16
  /-- WORD_SR, R21 -/
  wordSr : BitVec 16
  /-- SYM_IDX, R25 -/
  symIdx : BitVec 7
  /-- RD_PTR, 43_dispatch_fifo.md R183; WR_PTR is a view of it and Q -/
  rdPtr : BitVec 5
  /-- QMEM, R183: FIFO_DEPTH words of CMD_W bits. Q is the normative state; the occupied words hold its entries
  (`State.qmemAgrees`) -/
  qmem : Vector (BitVec 3) 16
  /-- WAIT_TMR, 60_exceptions.md R247 -/
  waitTmr : Ticks
  /-- PUSH_TMR, R247 -/
  pushTmr : Ticks
  /-- POP_TMR, R247 -/
  popTmr : Ticks
  /-- a pop is in progress, 10_state.md R35 -/
  popBusy : Bool
  /-- the pulse on cap_arm -/
  capArm : Bool
  /-- the pulse on outc_strobe -/
  outcStrobe : Bool
  /-- pop_done, pop_hit, pop_cmd -/
  popPort : PopPort
  /-- the values on the configuration ports, 10_state.md R36 -/
  ports : Cfg
  /-- CODESET_TABLE, R34: a parameter of the build, NUM_CODESETS rows -/
  rom : List Config.CodesetRow
  /-- the event trace since the last reset, oldest first, R43 -/
  trace : List Event
  /-- the MODEL's own: the value the last value-returning operation returned -/
  ret : Ret
  /-- the MODEL's own: what the agents do next, in order; when it is empty they take their own turns -/
  inputs : List Input
  deriving DecidableEq, Repr

/-- Why the machine is stuck. -/
inductive Fault where
  /-- Raised by the decoder's turn (`decoderTurn`) when no decoder step is enabled: S_WAIT with SLOT IDLE. No state
  reachable from reset by the agents' steps is one (10_state.md R44). Safe: the machine stops. -/
  | decoderStuck
  deriving DecidableEq, Repr

/-- Why a run is outside the model (`refuse` of 93_implementation_defined.md). All are safe: the machine stops where the
spec gives the model no step. -/
inductive Refusal where
  /-- Raised by `exec` for an instruction with no meaning yet. Safe. -/
  | notModelled (mnemonic : String)
  /-- Raised by a step whose scheduled word is no operation. Safe. -/
  | undecodable (e : DecodeError)
  /-- Raised by a decode-loop step whose `require FSM == ...` is false (R200 to R208). Safe. -/
  | wrongLoopState
  /-- Raised by ARM and INIT when SLOT is not IDLE (R209). Safe. -/
  | slotNotIdle
  /-- Raised by ARM when the INIT it belongs to would fail (R209, R200). Safe. -/
  | initWouldFail
  /-- Raised by PUSH_OK and PUSH_TIMEOUT when no push of that Command is in progress: FSM is not S_PUSH, or the Command is
  not PEND_CMD (R174, R176, R206). Safe. -/
  | noPushInProgress
  /-- Raised by CAPTURE_DELIVER and WAIT_EXPIRE when SLOT is not ARMED (R201, R203, U4, U5). Safe. -/
  | slotNotArmed
  /-- Raised by TAKE_FRAME when SLOT is not FULL (R202). Safe. -/
  | slotNotFull
  /-- Raised by PUSH_OK when Q holds FIFO_DEPTH entries or more (R174). Safe. -/
  | queueFull
  /-- Raised by PUSH_TIMEOUT, and by RUN_PUSH with more than FIFO_DEPTH entries, when Q does not hold exactly FIFO_DEPTH
  entries (R176). Safe. -/
  | queueNotFull
  /-- Raised by POP_OK on an empty Q (R177). Safe. -/
  | queueEmpty
  /-- Raised by POP_EMPTY when Q has an entry (R178). Safe. -/
  | queueNotEmpty
  /-- Raised by PUSH_OK, PUSH_TIMEOUT and COMMAND_CODE on a Command code 6 or 7 (R92, U15). Safe. -/
  | reservedCommandCode
  /-- Raised by OUTCOME_CODE on a code 10 to 15 (R230, U15). Safe. -/
  | reservedOutcomeCode
  /-- Raised by CLASSIFY_LENGTH and DECODE on a count 65 to 127 (R82, U9). Safe. -/
  | countOutsideContract
  /-- Raised by ASSEMBLE16 when its sixteen symbols leave FB (R56). Safe. -/
  | baseOutsideBuffer
  /-- Raised by CAPTURE_DELIVER on a Frame of more than FRAME_CAP symbols (R82, U9). Safe. -/
  | frameTooLong
  /-- Raised by a pop_start pulse while a pop is in progress (R270, U7). Safe. -/
  | popInProgress
  /-- Raised by a reset of one side only (R261, U6). Safe. -/
  | oneSidedReset
  deriving DecidableEq, Repr

/-- The configuration ports at 0: the spec leaves their values OPEN (log entry 2). -/
def Cfg.zero : Cfg :=
  { variant := .standard, codesetIdx := 0, pushTimeout := 0, captureWait := 0 }

/-- The machine right after reset (10_state.md R45). Where R45 says "undefined after reset" the value is the model's
(log entry 1); the ports and the table are OPEN parameters with the values of log entry 2. -/
def State.reset : State :=
  { fsm := .init
    cfg := Cfg.zero
    csActive := Vector.replicate 6 0
    slot := .idle
    fbCount := 0
    fb := Vector.replicate 64 0
    resAddr := 0
    resCmd := 0
    pendCmd := .playPause
    lastOutcome := .none
    q := []
    addrSr := 0
    wordSr := 0
    symIdx := 0
    rdPtr := 0
    qmem := Vector.replicate 16 0
    waitTmr := 0
    pushTmr := 0
    popTmr := 0
    popBusy := false
    capArm := false
    outcStrobe := false
    popPort := .low
    ports := Cfg.zero
    rom := [Config.t0]
    trace := []
    ret := .none
    inputs := [] }

end Sys2Proof.Machine
end

