-- ==== Sys2Proof/Machine/Operands.lean ====
section
/-! DEFINITION. The pure functions of families 1 to 3 over words and the frame buffer, and the fields of words. -/

namespace Sys2Proof.Machine

/-! ### Fields of words (30_encoding.md R80, R89, R91) -/

/-- duration0 [23:0], the mark (R81). -/
def symDuration0 (s : SymWord) : Duration := s.extractLsb' 0 24

/-- level0 [24]. -/
def symLevel0 (s : SymWord) : BitVec 1 := s.extractLsb' 24 1

/-- duration1 [48:25], the space (R81). -/
def symDuration1 (s : SymWord) : Duration := s.extractLsb' 25 24

/-- level1 [49]. -/
def symLevel1 (s : SymWord) : BitVec 1 := s.extractLsb' 49 1

/-- A Symbol packed into its word (R80). -/
def packSymbol (level0 : BitVec 1) (duration0 : Duration) (level1 : BitVec 1) (duration1 : Duration) : SymWord :=
  level1 ++ duration1 ++ level0 ++ duration0

/-- W[7:0], the candidate command (20_memory.md R54). -/
def lowByte (w : BitVec 16) : BitVec 8 := w.extractLsb' 0 8

/-- W[15:8], the check byte (R54). -/
def highByte (w : BitVec 16) : BitVec 8 := w.extractLsb' 8 8

/-- KEY(E) = E[15:8] (42_codeset_resolver.md R160). -/
def keyOf (e : BitVec 16) : BitVec 8 := e.extractLsb' 8 8

/-! ### Timing classifier (40_timing_classifier.md) -/

/-- The value of a nominal constant. -/
def nominalValue : Nominal → Nat
  | .n562 => 562
  | .n1675 => 1675
  | .n2250 => 2250
  | .n4500 => 4500
  | .n9000 => 9000

/-- IN_WIN(d, n), R110: both ends are inside. -/
def inWindow (d : Duration) (n : Nat) : Bool :=
  decide (n - Config.tol ≤ d.toNat) && decide (d.toNat ≤ n + Config.tol)

/-- MATCH(s, M, S), R111. -/
def matchSymbol (s : SymWord) (mark space : Nat) : Bool :=
  inWindow (symDuration0 s) mark && inWindow (symDuration1 s) space

/-- MATCH_LEAD(s, v), R112. -/
def matchesLead (s : SymWord) (v : Variant) : Bool :=
  matchSymbol s (Config.leadMark v) (Config.leadSpace v)

/-- MATCH_RPT(s, v), R113. -/
def matchesRpt (s : SymWord) (v : Variant) : Bool :=
  matchSymbol s (Config.rptMark v) (Config.rptSpace v)

/-- MATCH_ZERO(s), R114. -/
def matchesZero (s : SymWord) : Bool := matchSymbol s Config.bitMark Config.zeroSpace

/-- MATCH_ONE(s), R115. -/
def matchesOne (s : SymWord) : Bool := matchSymbol s Config.bitMark Config.oneSpace

/-- CLASSIFY_BIT(s), R116. -/
def classifySymbol (s : SymWord) : Option Bool :=
  if matchesOne s then some true
  else if matchesZero s then some false
  else none

/-! ### Frame decoder (41_frame_decoder.md) -/

/-- CLASSIFY_LENGTH(n), R130. -/
def classifyCount (n : Nat) : FrameKind :=
  if n = Config.nNormal then .normal
  else if n = Config.nRepeat then .repeated
  else .unsupported

/-- MemRead(FB, i) (00_scope.md R11). No operation reads an index outside FB (20_memory.md R56). -/
def fbRead (fb : FrameBuffer) (i : Nat) : SymWord := fb[i]?.getD 0

/-- The state of one field's assembly: the bits set so far, how many symbols were classified, and whether none failed. -/
structure Scan where
  bits : BitVec 16
  seen : Nat
  ok : Bool
  deriving DecidableEq, Repr

/-- The loop of ASSEMBLE16 (R134) over the first `n` symbols of the field at `base`, in ascending order; it stops at the
first symbol that is neither ZERO nor ONE. -/
def scanField (fb : FrameBuffer) (base : Nat) : Nat → Scan
  | 0 => { bits := 0, seen := 0, ok := true }
  | n + 1 =>
    let r := scanField fb base n
    if r.ok then
      match classifySymbol (fbRead fb (base + n)) with
      | some true => { bits := r.bits ||| (1#16 <<< n), seen := n + 1, ok := true }
      | some false => { bits := r.bits, seen := n + 1, ok := true }
      | none => { bits := r.bits, seen := n, ok := false }
    else r

/-- ASSEMBLE16(frame, base), R134. -/
def assembleField (fb : FrameBuffer) (base : Nat) : Option (BitVec 16) :=
  let r := scanField fb base Config.fieldBits
  if r.ok then some r.bits else none

/-- CHECKSUM(W), R135: the complement is taken at 8 bits. -/
def checksumOk (w : BitVec 16) : Bool := highByte w == ~~~ lowByte w

/-- DECODE_NORMAL(frame, v), R133. -/
def decodeNormalFrame (fb : FrameBuffer) (v : Variant) : DecodeResult :=
  if matchesLead (fbRead fb 0) v then
    match assembleField fb Config.addrBase with
    | none => .bitMismatch
    | some a =>
      match assembleField fb Config.wordBase with
      | none => .bitMismatch
      | some w => if checksumOk w then .normal a (lowByte w) else .checksumFailed
  else .bitMismatch

/-- DECODE_REPEAT(frame, v), R138. -/
def decodeRepeatFrame (fb : FrameBuffer) (v : Variant) : DecodeResult :=
  if matchesRpt (fbRead fb 0) v then .repeated else .bitMismatch

/-- DECODE(frame, v), R131; the frame is the count and FB. -/
def decodeAnyFrame (count : Nat) (fb : FrameBuffer) (v : Variant) : DecodeResult :=
  match classifyCount count with
  | .normal => decodeNormalFrame fb v
  | .repeated => decodeRepeatFrame fb v
  | .unsupported => .unsupportedLength

/-! ### Codeset resolver (42_codeset_resolver.md) -/

/-- The Commands in the order of their codes. -/
def allCommands : List Command := [.playPause, .previous, .next, .mute, .volumeUp, .volumeDown]

/-- Entry k of a codeset, k the code of a Command. -/
def entryOf (cs : Codeset) : Command → BitVec 16
  | .playPause => cs[0]
  | .previous => cs[1]
  | .next => cs[2]
  | .mute => cs[3]
  | .volumeUp => cs[4]
  | .volumeDown => cs[5]

/-- RESOLVE(cs, c), R161: the ascending scan. With pairwise different keys its direction cannot be observed; no claim may
rest on which of two equal keys wins (U1, log entry 10). -/
def resolveCommand (cs : Codeset) (c : BitVec 8) : Option Command :=
  allCommands.find? fun k => keyOf (entryOf cs k) == c

/-- The six key bytes of a row are pairwise different. -/
def keysDistinct (cs : Codeset) : Bool :=
  decide ((allCommands.map fun k => keyOf (entryOf cs k)).Nodup)

/-- CODESET_OK(idx), R163; the table is not read when idx is out of range. -/
def codesetIsOk (rom : List Config.CodesetRow) (idx : Nat) : Bool :=
  match rom[idx]? with
  | none => false
  | some row => row.tag == Config.necTag && keysDistinct row.entries

/-- The entries of row idx, read by INIT after CODESET_OK (R200). -/
def romEntries (rom : List Config.CodesetRow) (idx : Nat) : Codeset :=
  match rom[idx]? with
  | none => Vector.replicate 6 0
  | some row => row.entries

end Sys2Proof.Machine
end

