-- ==== Sys2Proof/Machine/Flags.lean ====
section
/-! DEFINITION. The flags, ports and pointers that are functions of the state and are not stored. -/

namespace Sys2Proof.Machine

/-- Q_FULL (10_state.md R27). -/
def State.qFull (s : State) : Bool := decide (s.q.length = Config.fifoDepth)

/-- Q_EMPTY (R27). -/
def State.qEmpty (s : State) : Bool := decide (s.q.length = 0)

/-- FATAL, port fatal (R28). -/
def State.fatal (s : State) : Bool := decide (s.fsm = .halt)

/-- Port outc_code: LAST_OUTCOME (R36). -/
def State.outcPort (s : State) : BitVec 4 := outcomeCode s.lastOutcome

/-- Port cap_valid: the level of SLOT_FULL (R26). -/
def State.capValid (s : State) : Bool := decide (s.slot = .full)

/-- Port cap_count (R36). -/
def State.capCount (s : State) : BitVec 7 := s.fbCount

/-- Port fb_index (R36): the index of the symbol the decoder reads. It follows SYM_IDX, whose values 0 to 32 fit its six
bits (R25, log entry 22). -/
def State.fbIndex (s : State) : BitVec 6 := s.symIdx.setWidth 6

/-- Port fb_word (R36): FB[fb_index]. -/
def State.fbWord (s : State) : SymWord := fbRead s.fb s.fbIndex.toNat

/-- Port pop_done (R36). -/
def State.popDone (s : State) : Bool :=
  match s.popPort with
  | .low => false
  | .hit _ => true
  | .empty => true

/-- Port pop_hit. R36 gives it a meaning with pop_done alone; that it shows 0 while pop_done is 0 is the model's choice (DESIGN
CHOICE, log entry 23). -/
def State.popHit (s : State) : Bool :=
  match s.popPort with
  | .low => false
  | .hit _ => true
  | .empty => false

/-- Port pop_cmd: a Command code where pop_hit is 1, no value elsewhere (U11). -/
def State.popCmd (s : State) : Option (BitVec 3) :=
  match s.popPort with
  | .low => none
  | .hit c => some (commandCode c)
  | .empty => none

/-- The three phases (60_exceptions.md R246). -/
inductive Phase where
  | init
  | run
  | halt
  deriving DecidableEq, Repr

/-- The phase, told by FSM (R246). -/
def State.phase (s : State) : Phase :=
  match s.fsm with
  | .init => .init
  | .halt => .halt
  | .wait => .run
  | .decode => .run
  | .resolve => .run
  | .push => .run
  | .rearm => .run

/-- WR_PTR (43_dispatch_fifo.md R183): RD_PTR plus the number of entries, modulo 2 * FIFO_DEPTH. -/
def State.wrPtr (s : State) : BitVec 5 := s.rdPtr + BitVec.ofNat 5 s.q.length

/-- QMEM[k mod FIFO_DEPTH] (R183). -/
def State.qmemWord (s : State) (k : Nat) : BitVec 3 := s.qmem[k % Config.fifoDepth]?.getD 0

/-- The three storage spaces in the form the spec gives them (20_memory.md R50, 10_state.md R44 a): Q holds at most
FIFO_DEPTH entries and FB_COUNT is at most FRAME_CAP. FB has 64 words and a row six entries by type; none is
byte-addressed (log entry 13). -/
def Memory.wf (s : State) : Bool :=
  decide (s.q.length ≤ Config.fifoDepth) && decide (s.fbCount.toNat ≤ Config.frameCap)

/-- The tuple of 10_state.md section 1: the whole state of the transaction-level model. -/
structure Tuple where
  fsm : Fsm
  cfg : Cfg
  csActive : Codeset
  slot : Slot
  fbCount : BitVec 7
  fb : FrameBuffer
  resAddr : BitVec 16
  resCmd : BitVec 8
  pendCmd : Command
  lastOutcome : OutcomeCode
  q : List Command
  deriving DecidableEq, Repr

/-- The tuple of a state (R20). -/
def State.tuple (s : State) : Tuple :=
  { fsm := s.fsm, cfg := s.cfg, csActive := s.csActive, slot := s.slot, fbCount := s.fbCount, fb := s.fb,
    resAddr := s.resAddr, resCmd := s.resCmd, pendCmd := s.pendCmd, lastOutcome := s.lastOutcome, q := s.q }

end Sys2Proof.Machine
end

