-- ==== Sys2Proof/Machine/Ops.lean ====
section
/-! DEFINITION. The shared operations on the state: raising an outcome and returning from it, arming the capture, the two
ends of the queue, the frame buffer, the registers of the assembly, the timers, reset. -/

namespace Sys2Proof.Machine

/-- The answer of an operation. -/
abbrev Res := Host.Outcome State Fault Refusal

/-- The step is enabled only if its `require` holds; else the model has no such step. -/
def require (p : Bool) (r : Refusal) (o : Res) : Res := if p then o else .refused r

/-- The value an operation returns, kept where a reader finds it (log entry 6). -/
def State.setRet (v : Ret) (s : State) : State := { s with ret := v }

/-- Add an event at the end of the trace (10_state.md R43). -/
def State.record (e : Event) (s : State) : State := { s with trace := s.trace ++ [e] }

/-- The pulses of the last step fall (10_state.md R36: one-cycle pulses). -/
def State.clearPulses (s : State) : State := { s with capArm := false, outcStrobe := false, popPort := .low }

/-! ### Outcomes (60_exceptions.md) -/

/-- Where FSM goes when an outcome is raised (R230, column "FSM afterwards"; R240). NONE is never raised. -/
def fsmAfter (o : OutcomeCode) (now : Fsm) : Fsm :=
  match o with
  | .none => now
  | .captureTimeout => now
  | .configError => .halt
  | .dispatched => .rearm
  | .repeatIgnored => .rearm
  | .errUnsupportedLength => .rearm
  | .errBitMismatch => .rearm
  | .errChecksumFailed => .rearm
  | .resolveMiss => .rearm
  | .dispatchTimeout => .rearm

/-- The outcome implies that RES_ADDR and RES_CMD belong to this cycle (10_state.md R22). -/
def outcomeHasResult : OutcomeCode → Bool
  | .dispatched => true
  | .resolveMiss => true
  | .dispatchTimeout => true
  | _ => false

/-- The outcome implies PEND_CMD (60_exceptions.md R235, R238). -/
def outcomeHasPending : OutcomeCode → Bool
  | .dispatched => true
  | .dispatchTimeout => true
  | _ => false

/-- The event OUTCOME of the trace (10_state.md R43). -/
def State.outcomeEvent (o : OutcomeCode) (s : State) : Event :=
  .outcome o (if outcomeHasResult o then some (s.resAddr, s.resCmd) else none)
    (if outcomeHasPending o then some s.pendCmd else none)

/-- Raise an outcome: write LAST_OUTCOME, pulse outc_strobe, move FSM to the fixed continuation (R240, R239, R236). Nothing
is saved. -/
def State.raise (o : OutcomeCode) (s : State) : State :=
  { s with
    lastOutcome := o
    outcStrobe := true
    fsm := fsmAfter o s.fsm
    trace := s.trace ++ [s.outcomeEvent o] }

/-- Arm the capture source: SLOT to ARMED, one pulse on cap_arm, event ARM (44_decode_loop.md R209, R207). -/
def State.armCapture (s : State) : State :=
  { s with slot := .armed, capArm := true, trace := s.trace ++ [.arm] }

/-- Enter S_WAIT: WAIT_TMR starts from CFG.CAPTURE_WAIT (60_exceptions.md R247). -/
def State.enterWait (s : State) : State := { s with fsm := .wait, waitTmr := s.cfg.captureWait }

/-- The return from every recoverable outcome: the effect of REARM (60_exceptions.md R241, 44_decode_loop.md R207). -/
def State.returnFromOutcome (s : State) : State := s.armCapture.enterWait

/-! ### The queue (43_dispatch_fifo.md) -/

/-- MemWrite(Q, c): append at the tail, event PUSHED (R174); QMEM[WR_PTR mod FIFO_DEPTH] takes the code (R183). -/
def State.enqueue (c : Command) (s : State) : State :=
  { s with
    q := s.q ++ [c]
    qmem := s.qmem.setIfInBounds (s.wrPtr.toNat % Config.fifoDepth) (commandCode c)
    trace := s.trace ++ [.pushed c] }

/-- A push of `c` is in progress: FSM is S_PUSH and `c` is PEND_CMD (44_decode_loop.md R206). -/
def State.pushInProgress (c : Command) (s : State) : Bool := decide (s.fsm = .push) && decide (c = s.pendCmd)

/-- A push ends without room: Q unchanged, event PUSH_FAILED (R176). -/
def State.failPush (s : State) : State := { s with trace := s.trace ++ [.pushFailed] }

/-- A pop takes the head entry `c` and leaves `rest`: the result ports, RD_PTR, event POPPED (R177, R183). -/
def State.dequeue (c : Command) (rest : List Command) (s : State) : State :=
  { s with
    q := rest
    rdPtr := s.rdPtr + 1
    popBusy := false
    popPort := .hit c
    trace := s.trace ++ [.popped c] }

/-- A pop ends empty: the result ports, event POP_EMPTY (R178). -/
def State.endEmptyPop (s : State) : State :=
  { s with popBusy := false, popPort := .empty, trace := s.trace ++ [.popEmpty] }

/-- pop_start: a pop is in progress, POP_TMR is loaded from pop_timeout (60_exceptions.md R247). -/
def State.beginPop (timeout : Ticks) (s : State) : State := { s with popBusy := true, popTmr := timeout }

/-! ### The frame buffer -/

/-- Write the symbols of a Frame at indexes 0, 1, ...; the words at and beyond its count keep what they held (R201). -/
def writeFrame (fb : FrameBuffer) (f : List SymWord) : FrameBuffer :=
  Vector.ofFn fun i => (f[i.val]?).getD fb[i]

/-- The capture source hands over a Frame: FB, FB_COUNT, SLOT to FULL, event DELIVER (R201). -/
def State.deliver (f : List SymWord) (s : State) : State :=
  { s with
    fbCount := BitVec.ofNat 7 f.length
    fb := writeFrame s.fb f
    slot := .full
    trace := s.trace ++ [.deliver f] }

/-! ### The private registers of the assembly (10_state.md R21, R25; log entry 8) -/

/-- SYM_IDX is at symbol `i`. -/
def State.atSymbol (i : Nat) (s : State) : State := { s with symIdx := BitVec.ofNat 7 i }

/-- What ASSEMBLE16 at `base` leaves in a build: SYM_IDX at the last symbol examined, and the bits collected in ADDR_SR
for the address and in WORD_SR for the word. Another base writes SYM_IDX alone. -/
def State.latchField (base : Nat) (s : State) : State :=
  let r := scanField s.fb base Config.fieldBits
  let last := base + min r.seen (Config.fieldBits - 1)
  if base = Config.addrBase then { s with addrSr := r.bits, symIdx := BitVec.ofNat 7 last }
  else if base = Config.wordBase then { s with wordSr := r.bits, symIdx := BitVec.ofNat 7 last }
  else { s with symIdx := BitVec.ofNat 7 last }

/-- What DECODE_NORMAL leaves in a build: each field up to the check that failed. -/
def State.latchNormal (s : State) : State :=
  if matchesLead (fbRead s.fb 0) s.cfg.variant then
    if (assembleField s.fb Config.addrBase).isSome then (s.latchField Config.addrBase).latchField Config.wordBase
    else s.latchField Config.addrBase
  else s.atSymbol 0

/-- What DECODE of a Frame of `count` symbols leaves in a build. -/
def State.latchDecode (count : Nat) (s : State) : State :=
  match classifyCount count with
  | .normal => s.latchNormal
  | .repeated => s.atSymbol 0
  | .unsupported => s

/-! ### Timers (60_exceptions.md R247; 43_dispatch_fifo.md R171) -/

/-- The decoder's turn is a sample that neither succeeds nor is the last one: S_WAIT with no Frame, or S_PUSH with no room,
and ticks left. -/
def State.decoderWaits (s : State) : Bool :=
  (decide (s.fsm = .wait) && decide (s.slot = .armed) && decide (s.waitTmr ≠ 0)) ||
  (decide (s.fsm = .push) && s.qFull && decide (s.pushTmr ≠ 0))

/-- One tick of the timer of the decoder's present wait. -/
def State.decoderTick (s : State) : State :=
  if s.fsm = .wait then { s with waitTmr := s.waitTmr - 1 } else { s with pushTmr := s.pushTmr - 1 }

/-- One tick of POP_TMR. -/
def State.popTick (s : State) : State := { s with popTmr := s.popTmr - 1 }

/-! ### Reset (70_reset_and_hazards.md R260, R262) -/

/-- Both resets at an edge: every register that R260 resets takes its value after reset. FB, FB_COUNT, QMEM, ADDR_SR,
WORD_SR and SYM_IDX "are not reset" (R260), nor is CS_ACTIVE (10_state.md R30): they keep what they held. The table, the
ports and what the agents do next are outside the block and stay. A new trace begins (log entry 9). -/
def State.applyReset (s : State) : State :=
  { State.reset with
    csActive := s.csActive
    fbCount := s.fbCount
    fb := s.fb
    addrSr := s.addrSr
    wordSr := s.wordSr
    symIdx := s.symIdx
    qmem := s.qmem
    ports := s.ports
    rom := s.rom
    inputs := s.inputs }

/-! ### Fetching -/

/-- What selects an operation, where that is state: the FSM code, the SLOT code, PEND_CMD for a completion of the push
(30_encoding.md R95, 44_decode_loop.md R206). -/
def selectOperation (i : Instr) (s : State) : State :=
  match i with
  | .pushOk x => { s with fsm := .push, pendCmd := (commandOfCode x).getD s.pendCmd }
  | .pushTimeout x => { s with fsm := .push, pendCmd := (commandOfCode x).getD s.pendCmd }
  | .init => { s with fsm := .init }
  | .arm => { s with fsm := .init, slot := .idle }
  | .captureDeliver _ => { s with slot := .armed }
  | .takeFrame => { s with fsm := .wait, slot := .full }
  | .waitExpire => { s with fsm := .wait, slot := .armed }
  | .runDecode => { s with fsm := .decode }
  | .runResolve => { s with fsm := .resolve }
  | .runPush => { s with fsm := .push }
  | .rearm => { s with fsm := .rearm }
  | .halted => { s with fsm := .halt }
  | _ => s

/-- Put an operation word where the next step reads it, and select it. -/
def State.scheduleWord (c : Code) (s : State) : State :=
  match decode c with
  | .ok i => selectOperation i { s with inputs := .op c :: s.inputs }
  | .error _ => { s with inputs := .op c :: s.inputs }

end Sys2Proof.Machine
end

