-- ==== Sys2Proof/Machine/Fifo.lean ====
section
/-! DEFINITION. Meanings of family 4, the command dispatch FIFO (43_dispatch_fifo.md): the completions of push and pop. The
push is the decoder's, in progress while FSM is S_PUSH (44_decode_loop.md R206). The pop_start pulse of a call that
completes on its first sample is part of POP_OK and POP_EMPTY (30_encoding.md R95); a call that waits begins with the input
popStart (log entry 7). -/

namespace Sys2Proof.Machine

/-- PUSH_OK, R174. -/
def execPushOk (cmd : BitVec 3) (s : State) : Res :=
  match commandOfCode cmd with
  | none => .refused .reservedCommandCode
  | some c =>
    require (s.pushInProgress c) .noPushInProgress
      (require (decide (s.q.length < Config.fifoDepth)) .queueFull (.next ((s.enqueue c).setRet (.bool true))))

/-- PUSH_TIMEOUT, R176: cmd is discarded. -/
def execPushTimeout (cmd : BitVec 3) (s : State) : Res :=
  match commandOfCode cmd with
  | none => .refused .reservedCommandCode
  | some c =>
    require (s.pushInProgress c) .noPushInProgress
      (require s.qFull .queueNotFull (.next (s.failPush.setRet (.bool false))))

/-- POP_OK, R177. -/
def execPopOk (s : State) : Res :=
  match s.q with
  | [] => .refused .queueEmpty
  | c :: rest => .next ((s.dequeue c rest).setRet (.command (some c)))

/-- POP_EMPTY, R178. -/
def execPopEmpty (s : State) : Res :=
  require s.qEmpty .queueNotEmpty (.next (s.endEmptyPop.setRet (.command none)))

end Sys2Proof.Machine
end

