-- ==== Sys2Proof/Machine/Formats.lean ====
section
/-! DEFINITION. Meanings of the word formats: the reading of a word into its named fields (log entry 6). -/

namespace Sys2Proof.Machine

/-- SYMBOL_WORD, 30_encoding.md R80. -/
def execSymbolWord (x : SymWord) (s : State) : Res :=
  .next (s.setRet (.symbol (symLevel0 x) (symDuration0 x) (symLevel1 x) (symDuration1 x)))

/-- CODESET_ENTRY, R91: the key byte and the unused low byte. -/
def execCodesetEntry (e : BitVec 16) (s : State) : Res :=
  .next (s.setRet (.entry (keyOf e) (lowByte e)))

/-- RAW_COMMAND_WORD, R89: the check byte and the candidate command. -/
def execRawCommandWord (w : BitVec 16) (s : State) : Res :=
  .next (s.setRet (.rawWord (highByte w) (lowByte w)))

/-- COMMAND_CODE, R92. -/
def execCommandCode (c : BitVec 3) (s : State) : Res :=
  match commandOfCode c with
  | none => .refused .reservedCommandCode
  | some k => .next (s.setRet (.command (some k)))

/-- OUTCOME_CODE, 60_exceptions.md R230. -/
def execOutcomeCode (o : BitVec 4) (s : State) : Res :=
  match outcomeOfCode o with
  | none => .refused .reservedOutcomeCode
  | some k => .next (s.setRet (.outcome k))

end Sys2Proof.Machine
end

