-- ==== Sys2Proof/Machine/Frame.lean ====
section
/-! DEFINITION. Meanings of family 2, the frame decoder (41_frame_decoder.md): they return a value and write no state of
the transaction-level model; in a build they leave ADDR_SR, WORD_SR and SYM_IDX (10_state.md R21, R25). The hardware calls
them inside RUN_DECODE, on a Frame in the slot (30_encoding.md R95); that a scheduled word runs one alone, whatever SLOT and
FB_COUNT are, on FB as it stands (10_state.md R32), is the model's choice (DESIGN CHOICE, log entry 25). -/

namespace Sys2Proof.Machine

/-- CLASSIFY_LENGTH, R130; a count above FRAME_CAP cannot be presented (R82, U9). -/
def execClassifyLength (n : BitVec 7) (s : State) : Res :=
  require (decide (n.toNat ≤ Config.frameCap)) .countOutsideContract
    (.next (s.setRet (.kind (classifyCount n.toNat))))

/-- DECODE, R131: the frame is the count n and FB, v is CFG.VARIANT. Alone it reads FB whatever SLOT and FB_COUNT are (log
entry 25). -/
def execDecodeFrame (n : BitVec 7) (s : State) : Res :=
  require (decide (n.toNat ≤ Config.frameCap)) .countOutsideContract
    (.next ((s.latchDecode n.toNat).setRet (.decoded (decodeAnyFrame n.toNat s.fb s.cfg.variant))))

/-- DECODE_NORMAL, R133: the operand word is the count 34. Alone it reads FB whatever SLOT and FB_COUNT are (log entry 25). -/
def execDecodeNormal (s : State) : Res :=
  .next (s.latchNormal.setRet (.decoded (decodeNormalFrame s.fb s.cfg.variant)))

/-- ASSEMBLE16, R134. Alone it reads FB whatever SLOT and FB_COUNT are (log entry 25). -/
def execAssemble16 (base : BitVec 7) (s : State) : Res :=
  require (decide (base.toNat + Config.fieldBits ≤ Config.frameCap)) .baseOutsideBuffer
    (.next ((s.latchField base.toNat).setRet (.field (assembleField s.fb base.toNat))))

/-- CHECKSUM, R135. -/
def execChecksum (w : BitVec 16) (s : State) : Res :=
  .next (s.setRet (.bool (checksumOk w)))

/-- DECODE_REPEAT, R138: the operand word is the count 2. Alone it reads FB whatever SLOT and FB_COUNT are (log entry 25). -/
def execDecodeRepeat (s : State) : Res :=
  .next ((s.atSymbol 0).setRet (.decoded (decodeRepeatFrame s.fb s.cfg.variant)))

end Sys2Proof.Machine
end

