-- ==== Sys2Proof/Machine/Loop.lean ====
section
/-! DEFINITION. Meanings of family 5, the decode loop and the capture handoff (44_decode_loop.md). -/

namespace Sys2Proof.Machine

/-- INIT on success: CFG, CS_ACTIVE, the first arming, S_WAIT (R200, R209). -/
def State.initSucceeds (s : State) : State :=
  ({ s with cfg := s.ports, csActive := romEntries s.rom s.ports.codesetIdx }).armCapture.enterWait

/-- INIT on failure: CFG, ConfigurationError (R200, 60_exceptions.md R239). -/
def State.initFails (s : State) : State :=
  ({ s with cfg := s.ports }).raise .configError

/-- INIT, R200. ARM inside it requires SLOT IDLE (R209), which holds in S_INIT (10_state.md R44). -/
def execInit (s : State) : Res :=
  require (decide (s.fsm = .init)) .wrongLoopState
    (if codesetIsOk s.rom s.ports.codesetIdx then
      require (decide (s.slot = .idle)) .slotNotIdle (.next s.initSucceeds)
    else .next s.initFails)

/-- ARM, R209: the arming inside a successful INIT (30_encoding.md R95), so only in S_INIT with a legal row selected. -/
def execArm (s : State) : Res :=
  require (decide (s.fsm = .init)) .wrongLoopState
    (require (codesetIsOk s.rom s.ports.codesetIdx) .initWouldFail
      (require (decide (s.slot = .idle)) .slotNotIdle (.next s.armCapture)))

/-- CAPTURE_DELIVER, R201. -/
def execCaptureDeliver (f : List SymWord) (s : State) : Res :=
  require (decide (f.length ≤ Config.frameCap)) .frameTooLong
    (require (decide (s.slot = .armed)) .slotNotArmed (.next (s.deliver f)))

/-- TAKE_FRAME, R202. -/
def execTakeFrame (s : State) : Res :=
  require (decide (s.fsm = .wait)) .wrongLoopState
    (require (decide (s.slot = .full)) .slotNotFull (.next { s with fsm := .decode }))

/-- WAIT_EXPIRE, R203. -/
def execWaitExpire (s : State) : Res :=
  require (decide (s.fsm = .wait)) .wrongLoopState
    (require (decide (s.slot = .armed)) .slotNotArmed
      (.next ({ s with waitTmr := s.cfg.captureWait }.raise .captureTimeout)))

/-- What RUN_DECODE does with the result of DECODE (R204). -/
def State.concludeDecode (r : DecodeResult) (s : State) : State :=
  match r with
  | .normal a c => { s with resAddr := a, resCmd := c, fsm := .resolve }
  | .repeated => s.raise .repeatIgnored
  | .unsupportedLength => s.raise .errUnsupportedLength
  | .bitMismatch => s.raise .errBitMismatch
  | .checksumFailed => s.raise .errChecksumFailed

/-- RUN_DECODE, R204. -/
def execRunDecode (s : State) : Res :=
  require (decide (s.fsm = .decode)) .wrongLoopState
    (.next ((s.latchDecode s.fbCount.toNat).concludeDecode (decodeAnyFrame s.fbCount.toNat s.fb s.cfg.variant)))

/-- A look-up hit: PEND_CMD, S_PUSH, PUSH_TMR loaded from CFG.PUSH_TIMEOUT (R205, 60_exceptions.md R247). -/
def State.lookupHits (k : Command) (s : State) : State :=
  { s with pendCmd := k, fsm := .push, pushTmr := s.cfg.pushTimeout }

/-- RUN_RESOLVE, R205. -/
def execRunResolve (s : State) : Res :=
  require (decide (s.fsm = .resolve)) .wrongLoopState
    (match resolveCommand s.csActive s.resCmd with
    | some k => .next (s.lookupHits k)
    | none => .next (s.raise .resolveMiss))

/-- RUN_PUSH, R206: the completion of push(PEND_CMD, CFG.PUSH_TIMEOUT), success with room and timeout when full. -/
def execRunPush (s : State) : Res :=
  require (decide (s.fsm = .push)) .wrongLoopState
    (if s.q.length < Config.fifoDepth then .next ((s.enqueue s.pendCmd).raise .dispatched)
    else require s.qFull .queueNotFull (.next (s.failPush.raise .dispatchTimeout)))

/-- REARM, R207. -/
def execRearm (s : State) : Res :=
  require (decide (s.fsm = .rearm)) .wrongLoopState (.next s.returnFromOutcome)

/-- HALTED, R208: no state change. -/
def execHalted (s : State) : Res :=
  require (decide (s.fsm = .halt)) .wrongLoopState (.next s)

end Sys2Proof.Machine
end

