-- ==== Sys2Proof/Machine/Resolver.lean ====
section
/-! DEFINITION. Meanings of family 3, the codeset resolver (42_codeset_resolver.md). The hardware calls them inside other
operations (30_encoding.md R95); that a scheduled word runs one alone, in any state, is the model's choice (DESIGN CHOICE,
log entry 25). -/

namespace Sys2Proof.Machine

/-- KEY, R160. -/
def execKey (e : BitVec 16) (s : State) : Res :=
  .next (s.setRet (.byte (keyOf e)))

/-- RESOLVE, R161: cs is CS_ACTIVE. RUN_RESOLVE calls it (30_encoding.md R95); alone it runs in any state, before INIT on
what CS_ACTIVE holds then, which 10_state.md R30 calls undefined (DESIGN CHOICE, log entry 25). -/
def execResolve (c : BitVec 8) (s : State) : Res :=
  .next (s.setRet (.command (resolveCommand s.csActive c)))

/-- CODESET_OK, R163. -/
def execCodesetOk (idx : Nat) (s : State) : Res :=
  .next (s.setRet (.bool (codesetIsOk s.rom idx)))

end Sys2Proof.Machine
end

