-- ==== Sys2Proof/Machine/Timing.lean ====
section
/-! DEFINITION. Meanings of family 1, the timing classifier (40_timing_classifier.md): pure functions that return a value
and write no state of the hardware. The hardware calls them inside a decode (30_encoding.md R95); that a scheduled word runs
one alone, in any state, is the model's choice (DESIGN CHOICE, log entry 25). -/

namespace Sys2Proof.Machine

/-- IN_WIN, R110. -/
def execInWin (d : Duration) (n : Nominal) (s : State) : Res :=
  .next (s.setRet (.bool (inWindow d (nominalValue n))))

/-- MATCH, R111. -/
def execMatchSym (x : SymWord) (mark space : Nominal) (s : State) : Res :=
  .next (s.setRet (.bool (matchSymbol x (nominalValue mark) (nominalValue space))))

/-- MATCH_LEAD, R112: v is CFG.VARIANT. -/
def execMatchLead (x : SymWord) (s : State) : Res :=
  .next (s.setRet (.bool (matchesLead x s.cfg.variant)))

/-- MATCH_RPT, R113: v is CFG.VARIANT. -/
def execMatchRpt (x : SymWord) (s : State) : Res :=
  .next (s.setRet (.bool (matchesRpt x s.cfg.variant)))

/-- MATCH_ZERO, R114. -/
def execMatchZero (x : SymWord) (s : State) : Res :=
  .next (s.setRet (.bool (matchesZero x)))

/-- MATCH_ONE, R115. -/
def execMatchOne (x : SymWord) (s : State) : Res :=
  .next (s.setRet (.bool (matchesOne x)))

/-- CLASSIFY_BIT, R116. -/
def execClassifyBit (x : SymWord) (s : State) : Res :=
  .next (s.setRet (.bit (classifySymbol x)))

end Sys2Proof.Machine
end

