-- ==== Sys2Proof/Machine/Dispatch.lean ====
section
/-! DEFINITION. One arm per operation. -/

namespace Sys2Proof.Machine

def exec (i : Instr) (s : State) : Host.Outcome State Fault Refusal :=
  match i with
  | .inWin d n => Sys2Proof.Machine.execInWin d n s
  | .matchSym x mark space => Sys2Proof.Machine.execMatchSym x mark space s
  | .matchLead x => Sys2Proof.Machine.execMatchLead x s
  | .matchRpt x => Sys2Proof.Machine.execMatchRpt x s
  | .matchZero x => Sys2Proof.Machine.execMatchZero x s
  | .matchOne x => Sys2Proof.Machine.execMatchOne x s
  | .classifyBit x => Sys2Proof.Machine.execClassifyBit x s
  | .classifyLength n => Sys2Proof.Machine.execClassifyLength n s
  | .decodeFrame n => Sys2Proof.Machine.execDecodeFrame n s
  | .decodeNormal => Sys2Proof.Machine.execDecodeNormal s
  | .assemble16 base => Sys2Proof.Machine.execAssemble16 base s
  | .checksum w => Sys2Proof.Machine.execChecksum w s
  | .decodeRepeat => Sys2Proof.Machine.execDecodeRepeat s
  | .key e => Sys2Proof.Machine.execKey e s
  | .resolve c => Sys2Proof.Machine.execResolve c s
  | .codesetOk idx => Sys2Proof.Machine.execCodesetOk idx s
  | .pushOk cmd => Sys2Proof.Machine.execPushOk cmd s
  | .pushTimeout cmd => Sys2Proof.Machine.execPushTimeout cmd s
  | .popOk => Sys2Proof.Machine.execPopOk s
  | .popEmpty => Sys2Proof.Machine.execPopEmpty s
  | .init => Sys2Proof.Machine.execInit s
  | .arm => Sys2Proof.Machine.execArm s
  | .captureDeliver f => Sys2Proof.Machine.execCaptureDeliver f s
  | .takeFrame => Sys2Proof.Machine.execTakeFrame s
  | .waitExpire => Sys2Proof.Machine.execWaitExpire s
  | .runDecode => Sys2Proof.Machine.execRunDecode s
  | .runResolve => Sys2Proof.Machine.execRunResolve s
  | .runPush => Sys2Proof.Machine.execRunPush s
  | .rearm => Sys2Proof.Machine.execRearm s
  | .halted => Sys2Proof.Machine.execHalted s
  | .symbolWord x => Sys2Proof.Machine.execSymbolWord x s
  | .codesetEntry e => Sys2Proof.Machine.execCodesetEntry e s
  | .rawCommandWord w => Sys2Proof.Machine.execRawCommandWord w s
  | .commandCode c => Sys2Proof.Machine.execCommandCode c s
  | .outcomeCode o => Sys2Proof.Machine.execOutcomeCode o s

end Sys2Proof.Machine
end

