-- ==== Sys2Proof/Machine/Turn.lean ====
section
/-! DEFINITION. What each agent does in its turn: the decoder by its own FSM, the others by their inputs. With no inputs the
agents with work take their turns one after the other, so that none waits for ever (44_decode_loop.md R215,
43_dispatch_fifo.md R184). -/

namespace Sys2Proof.Machine

/-- The decoder's own turn, one sample of clk_d: while it waits and ticks are left it counts (43_dispatch_fifo.md R171),
else it performs the operation that FSM and SLOT select (44_decode_loop.md R211). -/
def decoderTurn (s : State) : Res :=
  if s.decoderWaits then .next s.decoderTick
  else
    match decodeFsm (fsmCode s.fsm) (slotCode s.slot) with
    | .ok i => exec i s
    | .error _ => .fault .decoderStuck

/-- One sample of clk_c: a pop in progress completes on an entry, ends empty on its last sample, else counts (R171). With
no pop in progress nothing happens. -/
def consumerTurn (s : State) : Res :=
  if s.popBusy then
    if s.qEmpty then
      if s.popTmr = 0 then exec .popEmpty s else .next s.popTick
    else exec .popOk s
  else .next s

/-- The two turns of one edge of a one-clock build. For a push and a pop that complete together 43_dispatch_fifo.md R180
puts the push first on an empty queue and the pop first on a full one. It gives no order on a queue that is neither, nor
where the decoder's turn completes no push. The model takes the decoder's turn first on an empty queue and the consumer's
first on every other, whatever the decoder does; beyond R180 that, which fixes the order of the events in the trace, is the
model's choice (DESIGN CHOICE, log entry 24). -/
def bothTurns (s : State) : List Input := if s.qEmpty then [.clkD, .clkC] else [.clkC, .clkD]

/-- The step an operation is part of, where the spec gives it as no step of its own: "ARM is not a separate step of the
model: it happens inside INIT" (44_decode_loop.md R209); RUN_PUSH "is its completion" of the push, by PUSH_OK or
PUSH_TIMEOUT (R206). -/
def enclosingStep : Instr → Option Instr
  | .arm => some .init
  | .pushOk _ => some .runPush
  | .pushTimeout _ => some .runPush
  | _ => none

/-- Run an operation as a step. A part of another step, where it is enabled, happens inside that step. A function that other
operations call (30_encoding.md R95) runs alone, in any state, which is the model's choice (DESIGN CHOICE, log entry 25). -/
def runStep (i : Instr) (s : State) : Res :=
  match enclosingStep i with
  | none => exec i s
  | some j =>
    match exec i s with
    | .next _ => exec j s
    | .fault f => .fault f
    | .refused r => .refused r

/-- A scheduled operation word: decode it and run it. -/
def runWord (c : Code) (s : State) : Res :=
  match decode c with
  | .ok i => runStep i s
  | .error e => .refused (.undecodable e)

/-- What one input does; `s` is the state with the input taken from the list. -/
def applyInput (x : Input) (s : State) : Res :=
  match x with
  | .op c => runWord c s
  | .clkD => decoderTurn s
  | .clkC => consumerTurn s
  | .clkBoth => .next { s with inputs := bothTurns s ++ s.inputs }
  | .popStart timeout => require (!s.popBusy) .popInProgress (.next (s.beginPop timeout))
  | .config p => .next { s with ports := p }
  | .reset d c =>
    if d && c then .next s.applyReset
    else if d || c then .refused .oneSidedReset
    else .next s

/-- One step: the next input if there is one; else the agents' own turns, the decoder's alone, or the decoder's and the
consumer side's in turn while a pop is in progress. -/
def nextStep (s : State) : Res :=
  match s.inputs with
  | [] => applyInput (if s.popBusy then .clkBoth else .clkD) s.clearPulses
  | x :: rest => applyInput x { s.clearPulses with inputs := rest }

end Sys2Proof.Machine
end

