-- ==== Sys2Proof/Machine/Step.lean ====
section
/-! DEFINITION. One step of the machine, and the placing of a word where the next step reads it. -/

namespace Sys2Proof.Machine

/-- One step: next state, fault or refusal. -/
def step (s : State) : Host.Outcome State Fault Refusal := nextStep s

/-- `s` with the bare table word `w` where the next step reads its operation (log entry 11). -/
def State.withFetchWord (s : State) (nbits w : Nat) : State := s.scheduleWord (tableCode nbits w)

end Sys2Proof.Machine
end

