-- ==== Sys2Proof/Machine/Stimulus.lean ====
section
/-! DEFINITION. The stimulus forms of 30_encoding.md R96 and R97 (SYM, LEAD, RPT, B0, B1, TRAIL, NORMAL, ENC, REPEAT): the
frames a transmitter sends. They are test notation, no operation of the hardware (decision D32). -/

namespace Sys2Proof.Machine

/-- SYM(m, s): level0 = 1, level1 = 0. -/
def symOf (mark space : Duration) : SymWord := packSymbol 1 mark 0 space

/-- LEAD(v). -/
def leadSym : Variant → SymWord
  | .standard => symOf 9000 4500
  | .variant => symOf 4500 4500

/-- RPT(v). -/
def rptSym : Variant → SymWord
  | .standard => symOf 9000 2250
  | .variant => symOf 2250 2250

/-- BIT(b): B1 or B0. -/
def bitSym (b : Bool) : SymWord := if b then symOf 562 1675 else symOf 562 562

/-- TRAIL. -/
def trailSym : SymWord := symOf 562 0

/-- BITS16(x), bit 0 first. -/
def bits16 (x : BitVec 16) : List SymWord := (List.range 16).map fun i => bitSym (x.getLsbD i)

/-- NORMAL(v, A, W), 34 symbols. -/
def normalFrame (v : Variant) (a w : BitVec 16) : List SymWord :=
  leadSym v :: (bits16 a ++ bits16 w ++ [trailSym])

/-- The raw command word of a command byte: W[7:0] = C, W[15:8] its complement. -/
def commandWord (c : BitVec 8) : BitVec 16 := ~~~c ++ c

/-- ENC(v, A, C). -/
def encFrame (v : Variant) (a : BitVec 16) (c : BitVec 8) : List SymWord := normalFrame v a (commandWord c)

/-- REPEAT(v), 2 symbols. -/
def repeatFrame (v : Variant) : List SymWord := [rptSym v, trailSym]

end Sys2Proof.Machine
end

