-- ==== Sys2Proof/Safety.lean ====
section
/-! DEFINITION. What holds of a safe run, in the terms the statements use: the invariants of 10_state.md R44, the order of
the events of the trace (44_decode_loop.md R212, 20_memory.md R61), the order of the queue (43_dispatch_fifo.md R179), the
edges of the decode loop (44_decode_loop.md R211). -/

namespace Sys2Proof.Machine

/-! ### Turns and values -/

/-- The next `n` turns are the decoder's: it is alone, or `n` ticks of its clock are scheduled first. -/
abbrev State.DecoderTurns (n : Nat) (s : State) : Prop :=
  (s.inputs = [] ∧ s.popBusy = false) ∨ ∃ rest, s.inputs = List.replicate n .clkD ++ rest

/-- The operations that return a value (00_scope.md R11). -/
def returnsValue : Instr → Bool
  | .inWin _ _ => true
  | .matchSym _ _ _ => true
  | .matchLead _ => true
  | .matchRpt _ => true
  | .matchZero _ => true
  | .matchOne _ => true
  | .classifyBit _ => true
  | .classifyLength _ => true
  | .decodeFrame _ => true
  | .decodeNormal => true
  | .assemble16 _ => true
  | .checksum _ => true
  | .decodeRepeat => true
  | .key _ => true
  | .resolve _ => true
  | .codesetOk _ => true
  | .pushOk _ => true
  | .pushTimeout _ => true
  | .popOk => true
  | .popEmpty => true
  | .init => false
  | .arm => false
  | .captureDeliver _ => false
  | .takeFrame => false
  | .waitExpire => false
  | .runDecode => false
  | .runResolve => false
  | .runPush => false
  | .rearm => false
  | .halted => false
  | .symbolWord _ => true
  | .codesetEntry _ => true
  | .rawCommandWord _ => true
  | .commandCode _ => true
  | .outcomeCode _ => true

/-! ### The invariant of every reachable state (10_state.md R44) -/

/-- R44 (c). -/
def slotAgrees (f : Fsm) (x : Slot) : Bool :=
  match f with
  | .init => decide (x = .idle)
  | .wait => decide (x ≠ .idle)
  | .decode => decide (x = .full)
  | .resolve => decide (x = .full)
  | .push => decide (x = .full)
  | .rearm => decide (x = .full)
  | .halt => decide (x = .idle)

/-- R44 (e), with R30: in the RUN phase the latched index is legal, its row is an NEC row with six different keys, and
CS_ACTIVE is that row. -/
def State.codesetAgrees (s : State) : Bool :=
  match s.phase with
  | .init => true
  | .halt => true
  | .run => codesetIsOk s.rom s.cfg.codesetIdx && decide (s.csActive = romEntries s.rom s.cfg.codesetIdx)

/-- The queue is empty until the pipeline has started, and stays so in S_HALT (44_decode_loop.md R208). -/
def State.queueStarts (s : State) : Bool :=
  match s.phase with
  | .init => decide (s.q = [])
  | .halt => decide (s.q = [])
  | .run => true

/-- The occupied words of QMEM are the entries of Q (43_dispatch_fifo.md R183). -/
def State.qmemAgrees (s : State) : Prop :=
  ∀ j < s.q.length, (s.q[j]?).map commandCode = some (s.qmemWord (s.rdPtr.toNat + j))

/-- The invariant: the three storage spaces are well-formed (R44 a, R82), and R44 (c), R44 (e), R208, R183. R44 (b) holds by
the type of Q. -/
structure State.Inv (s : State) : Prop where
  memory : Memory.wf s = true
  slot : slotAgrees s.fsm s.slot = true
  codeset : s.codesetAgrees = true
  start : s.queueStarts = true
  qmem : s.qmemAgrees

/-! ### The order of events -/

/-- Where a decode cycle stands, as the trace tells it. -/
inductive CyclePhase where
  /-- never armed since reset -/
  | unarmed
  /-- armed, no Frame yet -/
  | armed
  /-- one Frame delivered, no outcome yet -/
  | delivered
  /-- as delivered, and one Command appended to Q -/
  | appended
  /-- as delivered, and the push failed -/
  | dropped
  /-- the outcome of the cycle is reported, the capture not yet re-armed -/
  | reported
  /-- the order of 44_decode_loop.md R212 is broken -/
  | broken
  deriving DecidableEq, Repr

/-- What an outcome does to a cycle: CAPTURE_TIMEOUT only between an ARM and the next DELIVER, CONFIG_ERROR only before the
first ARM, DISPATCHED exactly after an append, DISPATCH_TIMEOUT exactly after a failed push (R212). -/
def cycleOutcome (p : CyclePhase) (o : OutcomeCode) : CyclePhase :=
  match o, p with
  | .captureTimeout, .armed => .armed
  | .configError, .unarmed => .unarmed
  | .dispatched, .appended => .reported
  | .dispatchTimeout, .dropped => .reported
  | .repeatIgnored, .delivered => .reported
  | .errUnsupportedLength, .delivered => .reported
  | .errBitMismatch, .delivered => .reported
  | .errChecksumFailed, .delivered => .reported
  | .resolveMiss, .delivered => .reported
  | _, _ => .broken

/-- One event of the trace (R212, R61): ARM, DELIVER, one OUTCOME, ARM, DELIVER, ...; pops come at any time. -/
def cycleNext (p : CyclePhase) (e : Event) : CyclePhase :=
  match e, p with
  | .arm, .unarmed => .armed
  | .arm, .reported => .armed
  | .deliver _, .armed => .delivered
  | .outcome o _ _, p => cycleOutcome p o
  | .pushed _, .delivered => .appended
  | .pushFailed, .delivered => .dropped
  | .popped _, p => p
  | .popEmpty, p => p
  | _, _ => .broken

/-- Where the cycle stands by the trace. -/
def cycleOfTrace (t : List Event) : CyclePhase := t.foldl cycleNext .unarmed

/-- Where the cycle stands by the state. -/
def State.cyclePhase (s : State) : CyclePhase :=
  match s.fsm, s.slot with
  | .init, _ => .unarmed
  | .halt, _ => .unarmed
  | .wait, .full => .delivered
  | .wait, _ => .armed
  | .rearm, _ => .reported
  | _, _ => .delivered

/-- The trace is one decode cycle after another, and the state stands where the trace does. -/
def State.traceInOrder (s : State) : Prop := cycleOfTrace s.trace = s.cyclePhase

/-! ### The order of the queue -/

/-- The Commands appended to Q, in order. -/
def pushedOf (t : List Event) : List Command :=
  t.filterMap fun e => match e with
    | .pushed c => some c
    | _ => none

/-- The Commands returned by pops, in order. -/
def poppedOf (t : List Event) : List Command :=
  t.filterMap fun e => match e with
    | .popped c => some c
    | _ => none

/-- The queue holds exactly the Commands pushed and not yet popped, in the order they were pushed (R179). -/
def State.queueInOrder (s : State) : Prop := pushedOf s.trace = poppedOf s.trace ++ s.q

/-- The code of the last OUTCOME event; NONE if there is none (10_state.md R31). -/
def lastOutcomeOf (t : List Event) : OutcomeCode :=
  t.foldl (fun o e => match e with
    | .outcome c _ _ => c
    | _ => o) .none

/-! ### The decode loop -/

/-- The edges of 44_decode_loop.md R211. -/
def loopEdge : Fsm → Fsm → Bool
  | .init, .wait => true
  | .init, .halt => true
  | .wait, .decode => true
  | .wait, .wait => true
  | .decode, .resolve => true
  | .decode, .rearm => true
  | .resolve, .push => true
  | .resolve, .rearm => true
  | .push, .rearm => true
  | .rearm, .wait => true
  | .halt, .halt => true
  | _, _ => false

/-- The operations of the decoder that `require FSM == ...` (44_decode_loop.md R200, R202 to R208). -/
def loopOperations : List Instr :=
  [.init, .takeFrame, .waitExpire, .runDecode, .runResolve, .runPush, .rearm, .halted]

/-- A safe state: the invariant and both orders. -/
def State.Safe (s : State) : Prop := s.Inv ∧ s.traceInOrder ∧ s.queueInOrder

/-! ### Symbol classes in numbers (30_encoding.md R84) -/

/-- The two durations of a Symbol lie in two closed intervals. -/
abbrev InBox (x : SymWord) (markMin markMax spaceMin spaceMax : Nat) : Prop :=
  markMin ≤ (symDuration0 x).toNat ∧ (symDuration0 x).toNat ≤ markMax ∧
    spaceMin ≤ (symDuration1 x).toNat ∧ (symDuration1 x).toNat ≤ spaceMax

/-- Class LEAD of a mode. -/
abbrev IsLead (v : Variant) (x : SymWord) : Prop :=
  (v = .standard ∧ InBox x 8850 9150 4350 4650) ∨ (v = .variant ∧ InBox x 4350 4650 4350 4650)

/-- Class RPT of a mode. -/
abbrev IsRpt (v : Variant) (x : SymWord) : Prop :=
  (v = .standard ∧ InBox x 8850 9150 2100 2400) ∨ (v = .variant ∧ InBox x 2100 2400 2100 2400)

/-- Class ZERO. -/
abbrev IsZero (x : SymWord) : Prop := InBox x 412 712 412 712

/-- Class ONE. -/
abbrev IsOne (x : SymWord) : Prop := InBox x 412 712 1525 1825

/-- The sixteen symbols of FB from `base` carry the field `x`, bit 0 first (R88). -/
abbrev CarriesField (fb : FrameBuffer) (base : Nat) (x : BitVec 16) : Prop :=
  ∀ i < 16, (x.getLsbD i = true ∧ IsOne (fbRead fb (base + i))) ∨ (x.getLsbD i = false ∧ IsZero (fbRead fb (base + i)))

/-- One of the sixteen symbols of FB from `base` is neither ZERO nor ONE. -/
abbrev HasBadSymbol (fb : FrameBuffer) (base : Nat) : Prop :=
  ∃ i < 16, ¬ IsOne (fbRead fb (base + i)) ∧ ¬ IsZero (fbRead fb (base + i))

/-- `t` is `s` but for the returned value and the private registers of the assembly (10_state.md R21, R25). -/
abbrev SameButScan (s t : State) : Prop :=
  t = { s with ret := t.ret, addrSr := t.addrSr, wordSr := t.wordSr, symIdx := t.symIdx }

/-- A legal row of the codeset table in the words of 42_codeset_resolver.md R163. -/
abbrev LegalRow (row : Config.CodesetRow) : Prop :=
  row.tag = 0 ∧ ∀ j k : Command, j ≠ k → keyOf (entryOf row.entries j) ≠ keyOf (entryOf row.entries k)

/-! ### Two-clock builds -/

/-- The condition under which a claim that orders an event of one clock domain before a call in the other holds of a build
(20_memory.md R67): the clocks are the same signal, or the call's timeout exceeds SYNC_LAT ticks. -/
def crossDomainOrderHolds (sameClock : Bool) (syncLat timeout : Nat) : Bool :=
  sameClock || decide (syncLat < timeout)

end Sys2Proof.Machine
end

