-- ==== Sys2Proof/Certificates/Slice0/Obligations.lean ====
section
/-! DEFINITION. The statements for the provers. -/

open Sys2Proof Sys2Proof.Machine

/-! ### Reset -/

/-- What reset leaves, where 10_state.md section 11 (R45) states a value. -/
def Obligations.ResetLeavesTheStatedValues : Prop :=
  State.reset.fsm = .init ∧ State.reset.slot = .idle ∧ State.reset.q = [] ∧ State.reset.lastOutcome = .none ∧
  State.reset.resAddr = 0 ∧ State.reset.resCmd = 0 ∧ State.reset.pendCmd = .playPause ∧
  State.reset.cfg = { variant := .standard, codesetIdx := 0, pushTimeout := 0, captureWait := 0 } ∧
  State.reset.fatal = false ∧ State.reset.qEmpty = true ∧ State.reset.qFull = false ∧
  State.reset.waitTmr = 0 ∧ State.reset.pushTmr = 0 ∧ State.reset.popTmr = 0 ∧ State.reset.popBusy = false ∧
  State.reset.rdPtr = 0 ∧ State.reset.wrPtr = 0 ∧
  State.reset.capArm = false ∧ State.reset.outcStrobe = false ∧ State.reset.popDone = false

/-- Both resets at an edge, from any state: the values of R45, whatever was queued, pending or in progress (from R260
and R262). That the table and the ports stay, and what the registers that R260 does not reset hold, is the model's
choice (log entry 9). A reset of one side only is refused (U6). -/
def Obligations.ResetEventFromAnyState : Prop :=
  ∀ (s : State) (rest : List Input),
    (s.inputs = .reset true true :: rest →
      ∃ t, step s = .next t ∧ t.fsm = .init ∧ t.slot = .idle ∧ t.q = [] ∧ t.lastOutcome = .none ∧ t.resAddr = 0 ∧
        t.resCmd = 0 ∧ t.pendCmd = .playPause ∧
        t.cfg = { variant := .standard, codesetIdx := 0, pushTimeout := 0, captureWait := 0 } ∧
        t.rdPtr = 0 ∧ t.wrPtr = 0 ∧ t.waitTmr = 0 ∧ t.pushTmr = 0 ∧ t.popTmr = 0 ∧ t.popBusy = false ∧
        t.capArm = false ∧ t.outcStrobe = false ∧ t.popDone = false ∧
        t.ports = s.ports ∧ t.rom = s.rom ∧ t.inputs = rest) ∧
    (s.inputs = .reset true false :: rest → step s = .refused .oneSidedReset) ∧
    (s.inputs = .reset false true :: rest → step s = .refused .oneSidedReset)

/-- The invariant, the order of events and the order of the queue hold after reset. -/
def Obligations.ResetStateIsSafe : Prop := State.reset.Safe

/-! ### Encoding -/

/-- Words written out from opcode_table.json and 95_test_vectors.md section 0: the Symbol word of LEAD(0), the FSM
codes, the count 34, a command byte, and the reserved FSM code 7. Which port a bare byte is read on (0x22 as the count of
DECODE_NORMAL) and the selectors 19 and 15 are the model's choice (log entry 4). -/
def Obligations.WordsOfTheSpecDecode : Prop :=
  decodeTableWord 56 0x0002329002328 = some (.symbolWord 0x0002329002328) ∧
  decodeTableWord 8 0 = some .init ∧ decodeTableWord 8 2 = some .runDecode ∧ decodeTableWord 8 3 = some .runResolve ∧
  decodeTableWord 8 4 = some .runPush ∧ decodeTableWord 8 5 = some .rearm ∧ decodeTableWord 8 6 = some .halted ∧
  decodeTableWord 8 7 = none ∧ decodeTableWord 8 0x22 = some .decodeNormal ∧
  decodeFsm 1 2 = .ok .takeFrame ∧ decodeFsm 1 1 = .ok .waitExpire ∧
  Sys2Proof.decode { sel := 19, opnd := 0b1, frame := [] } = .ok .popOk ∧
  Sys2Proof.decode { sel := 15, opnd := 0xF2, frame := [] } = .ok (.resolve 0xF2)

/-- Decoding an encoded well-formed operation gives it back, with every operand at every value. The selector byte and
the nominal codes are the model's choice (log entry 4). -/
def Obligations.EncodedOperationDecodesToItself : Prop :=
  ∀ i : Instr, i.wellFormed = true → Sys2Proof.decode (encode i) = .ok i

/-- Every operation word has one meaning: what decodes is well-formed and encodes back to the same word, so no bit of a
word is dropped and no two words are one operation. The form of the operation word is the model's choice (log entry 4). -/
def Obligations.DecodedWordEncodesToItself : Prop :=
  ∀ (c : Code) (i : Instr), Sys2Proof.decode c = .ok i → i.wellFormed = true ∧ encode i = c

/-! ### The step -/

/-- What a step does with a scheduled word, a pop_start, port values or an edge, at the state `u` with the input taken
and the pulses of the last step low (DecoderRunsTheSelectedOperation has the ticks of clk_d, PopSamplesOnceATick those of
clk_c, ResetEventFromAnyState the resets). An operation word that decodes is run: exec of it at `u`; an operation that is
a part of another step (ARM of INIT, R209; PUSH_OK and PUSH_TIMEOUT of RUN_PUSH, R206) runs that step where it is
enabled. A word that does not decode is refused by name. A pop_start pulse begins a pop, and a second one is refused (U7).
New port values reach the ports alone. An edge of a one-clock build schedules both turns, the decoder's first on an empty
queue and the consumer's first on every other, and so do the agents by themselves while a pop is in progress (R184, R215).
The model's choices are the list of inputs (log entry 5), the moment the pulses fall (log entry 15), the order of an edge
beyond what R180 says of a push and a pop on an empty and on a full queue (log entry 24), and that a function other
operations call runs alone in any state (log entry 25); that a word of a part runs the whole step is its reading of R209
and R206 (log entry 7). -/
def Obligations.StepRunsTheDecodedOperation : Prop :=
  ∀ (s : State) (rest : List Input),
    let u : State := { s with inputs := rest, capArm := false, outcStrobe := false, popPort := .low }
    (∀ (c : Code) (i : Instr), s.inputs = .op c :: rest → Sys2Proof.decode c = .ok i →
      (enclosingStep i = none → step s = exec i u) ∧
      (∀ j v, enclosingStep i = some j → exec i u = .next v → step s = exec j u) ∧
      (∀ j r, enclosingStep i = some j → exec i u = .refused r → step s = .refused r)) ∧
    (∀ (c : Code) (e : DecodeError), s.inputs = .op c :: rest → Sys2Proof.decode c = .error e →
      step s = .refused (.undecodable e)) ∧
    (∀ t : Ticks, s.inputs = .popStart t :: rest →
      (s.popBusy = false → step s = .next { u with popBusy := true, popTmr := t }) ∧
      (s.popBusy = true → step s = .refused .popInProgress)) ∧
    (∀ p : Cfg, s.inputs = .config p :: rest → step s = .next { u with ports := p }) ∧
    (s.inputs = .clkBoth :: rest →
      (s.q = [] → step s = .next { u with inputs := .clkD :: .clkC :: rest }) ∧
      (s.q ≠ [] → step s = .next { u with inputs := .clkC :: .clkD :: rest })) ∧
    (s.inputs = [] → s.popBusy = true →
      (s.q = [] → step s = .next { u with inputs := [.clkD, .clkC] }) ∧
      (s.q ≠ [] → step s = .next { u with inputs := [.clkC, .clkD] }))

/-- In its own turn (nothing scheduled and no pop in progress, or a tick of clk_d) the decoder runs the operation that FSM
and SLOT select (30_encoding.md R95), at the state `u` with the tick taken and the pulses of the last step low; in S_WAIT
and S_PUSH it first counts the ticks of the wait (43_dispatch_fifo.md R171). That S_WAIT with SLOT IDLE is the fault
decoderStuck is the model's choice (log entry 20), and so is the moment the pulses fall (log entry 15). -/
def Obligations.DecoderRunsTheSelectedOperation : Prop :=
  ∀ s u : State,
    (s.inputs = [] ∧ s.popBusy = false ∧ u = s.clearPulses) ∨
      (∃ rest, s.inputs = .clkD :: rest ∧ u = { s.clearPulses with inputs := rest }) →
    (s.fsm = .init → step s = exec .init u) ∧
    (s.fsm = .wait → s.slot = .full → step s = exec .takeFrame u) ∧
    (s.fsm = .wait → s.slot = .armed → s.waitTmr = 0 → step s = exec .waitExpire u) ∧
    (s.fsm = .wait → s.slot = .armed → s.waitTmr ≠ 0 → step s = .next { u with waitTmr := s.waitTmr - 1 }) ∧
    (s.fsm = .wait → s.slot = .idle → step s = .fault .decoderStuck) ∧
    (s.fsm = .decode → step s = exec .runDecode u) ∧
    (s.fsm = .resolve → step s = exec .runResolve u) ∧
    (s.fsm = .push → s.q.length ≠ 16 ∨ s.pushTmr = 0 → step s = exec .runPush u) ∧
    (s.fsm = .push → s.q.length = 16 → s.pushTmr ≠ 0 → step s = .next { u with pushTmr := s.pushTmr - 1 }) ∧
    (s.fsm = .rearm → step s = exec .rearm u) ∧
    (s.fsm = .halt → step s = exec .halted u)

/-! ### Timing classifier -/

/-- R110: both ends are inside the window; nothing but the returned value changes. -/
def Obligations.InWindowBothEndsInside : Prop :=
  ∀ (d : Duration) (n : Nominal) (s : State),
    exec (.inWin d n) s =
      .next { s with ret := .bool (decide (nominalValue n - 150 ≤ d.toNat ∧ d.toNat ≤ nominalValue n + 150)) }

/-- R111: both durations must match; the levels are no operands. -/
def Obligations.MatchNeedsBothDurations : Prop :=
  ∀ (x : SymWord) (m sp : Nominal) (s : State),
    exec (.matchSym x m sp) s =
      .next { s with
        ret := .bool (decide (InBox x (nominalValue m - 150) (nominalValue m + 150)
        (nominalValue sp - 150) (nominalValue sp + 150))) }

/-- R112 and R113: only the window of the configured mode is tried. -/
def Obligations.LeadAndRepeatUseTheConfiguredMode : Prop :=
  ∀ (x : SymWord) (s : State),
    exec (.matchLead x) s = .next { s with ret := .bool (decide (IsLead s.cfg.variant x)) } ∧
    exec (.matchRpt x) s = .next { s with ret := .bool (decide (IsRpt s.cfg.variant x)) }

/-- R114, R115, R116: the data classes in numbers. -/
def Obligations.DataSymbolsByTheirIntervals : Prop :=
  ∀ (x : SymWord) (s : State),
    exec (.matchZero x) s = .next { s with ret := .bool (decide (IsZero x)) } ∧
    exec (.matchOne x) s = .next { s with ret := .bool (decide (IsOne x)) } ∧
    exec (.classifyBit x) s = .next { s with
      ret := .bit (if IsOne x then some true else if IsZero x then some false else none) }

/-- R118: the five answers are functions of the two durations and, for the first two, the mode alone: Symbols with equal
durations give equal answers in any two states, of the same mode for MATCH_LEAD and MATCH_RPT. -/
def Obligations.OnlyDurationsAndModeDecideTheClass : Prop :=
  ∀ (x y : SymWord) (s t : State), symDuration0 x = symDuration0 y → symDuration1 x = symDuration1 y →
    (s.cfg.variant = t.cfg.variant →
      (∃ r, exec (.matchLead x) s = .next (s.setRet r) ∧ exec (.matchLead y) t = .next (t.setRet r)) ∧
      (∃ r, exec (.matchRpt x) s = .next (s.setRet r) ∧ exec (.matchRpt y) t = .next (t.setRet r))) ∧
    (∃ r, exec (.matchZero x) s = .next (s.setRet r) ∧ exec (.matchZero y) t = .next (t.setRet r)) ∧
    (∃ r, exec (.matchOne x) s = .next (s.setRet r) ∧ exec (.matchOne y) t = .next (t.setRet r)) ∧
    (∃ r, exec (.classifyBit x) s = .next (s.setRet r) ∧ exec (.classifyBit y) t = .next (t.setRet r))

/-! ### Frame decoder -/

/-- R130: the kind is decided by the count alone; a count above FRAME_CAP is refused (U9). -/
def Obligations.KindByCountAlone : Prop :=
  ∀ (n : BitVec 7) (s : State),
    (n.toNat ≤ 64 → exec (.classifyLength n) s =
      .next { s with ret := .kind (if n = 34 then .normal else if n = 2 then .repeated else .unsupported) }) ∧
    (64 < n.toNat → exec (.classifyLength n) s = .refused .countOutsideContract)

/-- R131, its case pseudocode: DECODE dispatches on the count; every other count gives UnsupportedLength and touches
nothing. A count above FRAME_CAP is refused (U9). -/
def Obligations.DecodeDispatchesOnTheCount : Prop :=
  ∀ (n : BitVec 7) (s : State),
    (n = 34 → exec (.decodeFrame n) s = exec .decodeNormal s) ∧
    (n = 2 → exec (.decodeFrame n) s = exec .decodeRepeat s) ∧
    (n ≠ 34 → n ≠ 2 → n.toNat ≤ 64 →
      exec (.decodeFrame n) s = .next { s with ret := .decoded .unsupportedLength }) ∧
    (64 < n.toNat → exec (.decodeFrame n) s = .refused .countOutsideContract)

/-- From R134: sixteen classified symbols give the field with the first symbol as bit 0; one symbol of neither class
discards the whole field. Nothing changes but the returned value and the private registers of the assembly. R134 gives the
bases 1 and 17; every other base whose symbols lie in FB, and the refusal of one whose symbols leave it, are the model's
reading of 20_memory.md R56 (log entry 13). -/
def Obligations.AssemblyIsLowBitFirst : Prop :=
  ∀ (base : BitVec 7) (s : State),
    (base.toNat + 16 ≤ 64 →
      (∀ x : BitVec 16, CarriesField s.fb base.toNat x →
        ∃ t, exec (.assemble16 base) s = .next t ∧ t.ret = .field (some x) ∧ SameButScan s t) ∧
      (HasBadSymbol s.fb base.toNat →
        ∃ t, exec (.assemble16 base) s = .next t ∧ t.ret = .field none ∧ SameButScan s t)) ∧
    (64 < base.toNat + 16 → exec (.assemble16 base) s = .refused .baseOutsideBuffer)

/-- The private registers of the assembly (10_state.md R21, R25): when all sixteen symbols of the address (word) field
classify, ADDR_SR (WORD_SR) holds the field and SYM_IDX the index of its last symbol; the other register stays. The
value after a failed field is the model's reading (log entry 8). -/
def Obligations.AssemblyRegistersCollectTheField : Prop :=
  ∀ (s : State) (x : BitVec 16),
    (CarriesField s.fb 1 x → ∃ t, exec (.assemble16 1) s = .next t ∧ t.addrSr = x ∧ t.wordSr = s.wordSr ∧ t.symIdx = 16) ∧
    (CarriesField s.fb 17 x → ∃ t, exec (.assemble16 17) s = .next t ∧ t.wordSr = x ∧ t.addrSr = s.addrSr ∧ t.symIdx = 32)

/-- R135, with the equivalent forms R89 lists: the check byte is the 8-bit complement of the command byte. -/
def Obligations.ChecksumIsTheByteComplement : Prop :=
  ∀ (w : BitVec 16) (s : State),
    exec (.checksum w) s = .next { s with ret := .bool (decide (w.extractLsb' 8 8 = ~~~ w.extractLsb' 0 8)) } ∧
    (w.extractLsb' 8 8 = ~~~ w.extractLsb' 0 8 ↔ w.extractLsb' 0 8 = ~~~ w.extractLsb' 8 8) ∧
    (w.extractLsb' 8 8 = ~~~ w.extractLsb' 0 8 ↔ w.extractLsb' 0 8 ^^^ w.extractLsb' 8 8 = 0xFF) ∧
    (w.extractLsb' 8 8 = ~~~ w.extractLsb' 0 8 ↔ (w.extractLsb' 0 8).toNat + (w.extractLsb' 8 8).toNat = 255)

/-- R133, in every case: a Frame of good symbols gives its address and command if its word is a complement pair and
ChecksumFailed if not; a leading code outside its class or a data symbol of neither class gives BitMismatch, whatever
the word (R132: BitMismatch beats ChecksumFailed). FB[33] plays no part. -/
def Obligations.DecodeNormalInEveryCase : Prop :=
  ∀ s : State,
    (∀ a w : BitVec 16, IsLead s.cfg.variant (fbRead s.fb 0) → CarriesField s.fb 1 a → CarriesField s.fb 17 w →
      ∃ t, exec .decodeNormal s = .next t ∧ SameButScan s t ∧
        t.ret = .decoded (if w.extractLsb' 8 8 = ~~~ w.extractLsb' 0 8 then .normal a (w.extractLsb' 0 8)
          else .checksumFailed)) ∧
    (¬ IsLead s.cfg.variant (fbRead s.fb 0) ∨ HasBadSymbol s.fb 1 ∨ HasBadSymbol s.fb 17 →
      ∃ t, exec .decodeNormal s = .next t ∧ SameButScan s t ∧ t.ret = .decoded .bitMismatch)

/-- R138: a Repeat is decided by FB[0] alone. -/
def Obligations.DecodeRepeatByItsFirstSymbol : Prop :=
  ∀ s : State, ∃ t, exec .decodeRepeat s = .next t ∧ SameButScan s t ∧
    t.ret = .decoded (if IsRpt s.cfg.variant (fbRead s.fb 0) then .repeated else .bitMismatch)

/-- R137: for two frame buffers that agree on what is read (FB[0..32] of a Normal frame, FB[0] of a Repeat), DECODE and
RUN_DECODE do the same; FB[33] and FB[1] of a Repeat cannot matter. -/
def Obligations.UnreadSymbolsCannotMatter : Prop :=
  ∀ (s t : State) (fb' : FrameBuffer) (n : BitVec 7),
    (n = 34 ∧ (∀ i ≤ 32, fbRead s.fb i = fbRead fb' i)) ∨ (n = 2 ∧ fbRead s.fb 0 = fbRead fb' 0) →
    (exec (.decodeFrame n) s = .next t → exec (.decodeFrame n) { s with fb := fb' } = .next { t with fb := fb' }) ∧
    (s.fbCount = n → exec .runDecode s = .next t →
      exec .runDecode { s with fb := fb' } = .next { t with fb := fb' })

/-- R140: decoding a transmitted Frame gives back its address and command, in both modes, whatever the frame buffer held
before (the frames are those of 30_encoding.md R97); and so does decoding any 34 symbols of the right classes. -/
def Obligations.TransmittedFrameDecodesToItself : Prop :=
  ∀ (s : State) (a : BitVec 16) (c : BitVec 8),
    (∀ old : FrameBuffer, s.fb = writeFrame old (encFrame s.cfg.variant a c) →
      ∃ t, exec (.decodeFrame 34) s = .next t ∧ SameButScan s t ∧ t.ret = .decoded (.normal a c)) ∧
    (IsLead s.cfg.variant (fbRead s.fb 0) → CarriesField s.fb 1 a → CarriesField s.fb 17 (~~~c ++ c) →
      ∃ t, exec (.decodeFrame 34) s = .next t ∧ SameButScan s t ∧ t.ret = .decoded (.normal a c))

/-- 95_test_vectors.md S3: a transmitted word whose high byte is not the complement of its low byte always gives
ChecksumFailed, and RUN_DECODE reports it without touching the queue or the result registers. -/
def Obligations.WrongCheckByteAlwaysFails : Prop :=
  ∀ (s : State) (a w : BitVec 16) (old : FrameBuffer), w.extractLsb' 8 8 ≠ ~~~ w.extractLsb' 0 8 →
    s.fsm = .decode → s.fbCount = 34 → s.fb = writeFrame old (normalFrame s.cfg.variant a w) →
    ∃ t, exec .runDecode s = .next t ∧ t.lastOutcome = .errChecksumFailed ∧ t.fsm = .rearm ∧
      t.q = s.q ∧ t.resAddr = s.resAddr ∧ t.resCmd = s.resCmd ∧ t.pendCmd = s.pendCmd

/-! ### Codeset resolver -/

/-- R160: the key is the high byte. -/
def Obligations.KeyIsTheHighByte : Prop :=
  ∀ (e : BitVec 16) (s : State), exec (.key e) s = .next { s with ret := .byte (e.extractLsb' 8 8) } ∧
    (e.extractLsb' 8 8).toNat = e.toNat / 256

/-- R161: RESOLVE finds the Command whose key is the byte, and nothing if there is none. In a row with equal keys,
which no run reaches (R163), it finds one of the Commands with that key; the statement does not say which (U1). -/
def Obligations.ResolveFindsTheKey : Prop :=
  ∀ (s : State) (c : BitVec 8),
    (∀ k : Command, keyOf (entryOf s.csActive k) = c →
      (∀ j : Command, j ≠ k → keyOf (entryOf s.csActive j) ≠ c) →
      exec (.resolve c) s = .next { s with ret := .command (some k) }) ∧
    ((∀ k : Command, keyOf (entryOf s.csActive k) ≠ c) → exec (.resolve c) s = .next { s with ret := .command none }) ∧
    ((∃ k : Command, keyOf (entryOf s.csActive k) = c) → ∃ k : Command, keyOf (entryOf s.csActive k) = c ∧
      exec (.resolve c) s = .next { s with ret := .command (some k) })

/-- R163: the index is in range, the tag is the NEC tag, the six keys are pairwise different. -/
def Obligations.CodesetCheckConditions : Prop :=
  ∀ (s : State) (idx : Nat), ∃ b : Bool, exec (.codesetOk idx) s = .next { s with ret := .bool b } ∧
    (b = true ↔ ∃ row, s.rom[idx]? = some row ∧ LegalRow row)

/-! ### FIFO -/

/-- R174 and R176: while the push of a Command is in progress (FSM is S_PUSH and the Command is PEND_CMD, R206), with room
it is appended at the tail and no entry moves, and on a full queue the push fails and the queue is untouched; a push with
room cannot fail and a push on a full queue cannot succeed (R175). With no such push in progress neither step is enabled,
in no state of the loop. Reserved codes are refused (U15). QMEM takes the code at WR_PTR (R183). -/
def Obligations.PushAppendsOrFails : Prop :=
  ∀ (s : State) (c : Command),
    (s.fsm = .push → c = s.pendCmd →
      (s.q.length < 16 →
        exec (.pushOk (commandCode c)) s = .next { s with
          q := s.q ++ [c], qmem := s.qmem.setIfInBounds (s.wrPtr.toNat % 16) (commandCode c),
          ret := .bool true, trace := s.trace ++ [.pushed c] } ∧
        exec (.pushTimeout (commandCode c)) s = .refused .queueNotFull) ∧
      (s.q.length = 16 →
        exec (.pushTimeout (commandCode c)) s =
          .next { s with ret := .bool false, trace := s.trace ++ [.pushFailed] } ∧
        exec (.pushOk (commandCode c)) s = .refused .queueFull)) ∧
    (s.fsm ≠ .push ∨ c ≠ s.pendCmd →
      exec (.pushOk (commandCode c)) s = .refused .noPushInProgress ∧
      exec (.pushTimeout (commandCode c)) s = .refused .noPushInProgress) ∧
    (∀ x : BitVec 3, 6 ≤ x.toNat → exec (.pushOk x) s = .refused .reservedCommandCode ∧
      exec (.pushTimeout x) s = .refused .reservedCommandCode)

/-- From R177 and R178: a pop takes the oldest entry, shown on the ports; on an empty queue it ends empty and changes no
entry; exactly one of the two is possible. The rules enable them while a pop is in progress; that the operation includes
the pop_start that selects it (30_encoding.md R95), so that it completes with none in progress too, is the model's reading
(log entry 7). -/
def Obligations.PopTakesTheHeadOrEndsEmpty : Prop :=
  ∀ s : State,
    (∀ (c : Command) (rest : List Command), s.q = c :: rest →
      exec .popOk s = .next { s with
        q := rest, ret := .command (some c), popPort := .hit c, popBusy := false,
        rdPtr := s.rdPtr + 1, trace := s.trace ++ [.popped c] } ∧
      exec .popEmpty s = .refused .queueNotEmpty) ∧
    (s.q = [] →
      exec .popEmpty s = .next { s with
        ret := .command none, popPort := .empty, popBusy := false,
        trace := s.trace ++ [.popEmpty] } ∧
      exec .popOk s = .refused .queueEmpty)

/-- R183: the pointer refinement. The number of entries is the difference of the pointers modulo 32, empty when they are
equal, full when they differ by 16. Where entry j of Q is QMEM[(RD_PTR + j) mod 16] it stays so over a push and a pop
(EveryStepKeepsTheInvariant says it of every step): a push writes QMEM at WR_PTR, and no other word, and increments
WR_PTR; POP_OK reads QMEM at RD_PTR, writes no word and increments RD_PTR. -/
def Obligations.PointersRefineTheQueue : Prop :=
  ∀ s : State, s.q.length ≤ 16 →
    (s.wrPtr - s.rdPtr).toNat = s.q.length ∧ (s.wrPtr = s.rdPtr ↔ s.q = []) ∧
    (s.wrPtr - s.rdPtr = 16 ↔ s.qFull = true) ∧
    ((∀ j < s.q.length, (s.q[j]?).map commandCode = some (s.qmemWord ((s.rdPtr.toNat + j) % 16))) →
      (∀ (i : Instr) (c : Command) (t : State),
        i = .pushOk (commandCode c) ∨ (i = .runPush ∧ c = s.pendCmd ∧ s.q.length < 16) → exec i s = .next t →
        t.wrPtr = s.wrPtr + 1 ∧ t.rdPtr = s.rdPtr ∧
        t.qmem = s.qmem.setIfInBounds (s.wrPtr.toNat % 16) (commandCode c) ∧
        t.qmemWord (s.wrPtr.toNat % 16) = commandCode c ∧
        ∀ j < t.q.length, (t.q[j]?).map commandCode = some (t.qmemWord ((t.rdPtr.toNat + j) % 16))) ∧
      (∀ t : State, exec .popOk s = .next t →
        t.rdPtr = s.rdPtr + 1 ∧ t.wrPtr = s.wrPtr ∧ t.qmem = s.qmem ∧
        t.popCmd = some (s.qmemWord (s.rdPtr.toNat % 16)) ∧
        ∀ j < t.q.length, (t.q[j]?).map commandCode = some (t.qmemWord ((t.rdPtr.toNat + j) % 16))))

/-- From R44 (f) and R57: the queue changes only by the completion of the push in progress (R206) at its tail, with room,
or a pop of its head. -/
def Obligations.QueueChangesOnlyAtItsEnds : Prop :=
  ∀ (i : Instr) (s t : State), exec i s = .next t →
    t.q = s.q ∨
    (t.q = s.q ++ [s.pendCmd] ∧ s.q.length < 16 ∧ s.fsm = .push ∧
      (i = .runPush ∨ i = .pushOk (commandCode s.pendCmd))) ∨
    (∃ c, s.q = c :: t.q ∧ i = .popOk)

/-- From R179, as an invariant: every step keeps the order of the queue: what was pushed is what was popped followed by
what is queued, in one order, so every entry is returned once and none that was not pushed. -/
def Obligations.EveryStepKeepsQueueOrder : Prop :=
  ∀ s t : State, s.queueInOrder → step s = .next t → t.queueInOrder

/-! ### Decode loop -/

/-- R200, with the arming of R209 and WAIT_TMR of R247: with a legal row INIT latches the configuration, activates the
row and arms the capture; else it raises ConfigurationError and arms nothing (60_exceptions.md R239). -/
def Obligations.InitStartsOrHalts : Prop :=
  ∀ s : State, s.fsm = .init →
    (∀ row, s.rom[s.ports.codesetIdx]? = some row → LegalRow row → s.slot = .idle →
      exec .init s = .next { s with
        cfg := s.ports, csActive := row.entries, slot := .armed, capArm := true,
        fsm := .wait, waitTmr := s.ports.captureWait, trace := s.trace ++ [.arm] }) ∧
    ((∀ row, s.rom[s.ports.codesetIdx]? = some row → ¬ LegalRow row) →
      exec .init s = .next { s with
        cfg := s.ports, lastOutcome := .configError, outcStrobe := true, fsm := .halt,
        trace := s.trace ++ [.outcome .configError none none] })

/-- From R209 and R201: ARM and CAPTURE_DELIVER. ARM is enabled only inside an INIT that succeeds: in S_INIT with a legal
row selected. A delivered Frame fills FB below its count and leaves the rest; a Frame that comes while the slot is not
armed is no step of the model (U5). That ARM is refused elsewhere is the model's reading (log entry 7). -/
def Obligations.ArmAndDeliver : Prop :=
  ∀ s : State,
    (∀ row, s.fsm = .init → s.rom[s.ports.codesetIdx]? = some row → LegalRow row → s.slot = .idle →
      exec .arm s = .next { s with slot := .armed, capArm := true, trace := s.trace ++ [.arm] }) ∧
    (s.fsm = .init → (∀ row, s.rom[s.ports.codesetIdx]? = some row → ¬ LegalRow row) →
      exec .arm s = .refused .initWouldFail) ∧
    (s.fsm ≠ .init → exec .arm s = .refused .wrongLoopState) ∧
    (∀ f : List SymWord, f.length ≤ 64 → s.slot = .armed →
      ∃ t, exec (.captureDeliver f) s = .next t ∧
        t = { s with fb := t.fb, fbCount := t.fbCount, slot := .full, trace := s.trace ++ [.deliver f] } ∧
        t.fbCount.toNat = f.length ∧
        (∀ i < 64, i < f.length → some (fbRead t.fb i) = f[i]?) ∧
        (∀ i < 64, f.length ≤ i → fbRead t.fb i = fbRead s.fb i)) ∧
    (∀ f : List SymWord, f.length ≤ 64 → s.slot ≠ .armed → exec (.captureDeliver f) s = .refused .slotNotArmed)

/-- R202 and R203: a Frame in the slot is taken; an empty window ends with CAPTURE_TIMEOUT, no re-arm, and the window
starts again (60_exceptions.md R247). -/
def Obligations.WaitTakesOrExpires : Prop :=
  ∀ s : State, s.fsm = .wait →
    (s.slot = .full → exec .takeFrame s = .next { s with fsm := .decode }) ∧
    (s.slot = .armed → exec .waitExpire s = .next { s with
      lastOutcome := .captureTimeout, outcStrobe := true,
      waitTmr := s.cfg.captureWait, trace := s.trace ++ [.outcome .captureTimeout none none] }) ∧
    (s.slot = .full → exec .waitExpire s = .refused .slotNotArmed)

/-- R204: RUN_DECODE writes the result of DECODE, or raises the outcome of the result; nothing of a failed decode is
seen (41_frame_decoder.md R136). -/
def Obligations.RunDecodeConcludes : Prop :=
  ∀ (s d : State) (r : DecodeResult), s.fsm = .decode → s.fbCount.toNat ≤ 64 →
    exec (.decodeFrame s.fbCount) s = .next d → d.ret = .decoded r →
    exec .runDecode s = .next (match r with
      | .normal a c => { d with ret := s.ret, resAddr := a, resCmd := c, fsm := .resolve }
      | .repeated => { d with ret := s.ret, lastOutcome := .repeatIgnored, outcStrobe := true, fsm := .rearm, trace := s.trace ++ [.outcome .repeatIgnored none none] }
      | .unsupportedLength => { d with ret := s.ret, lastOutcome := .errUnsupportedLength, outcStrobe := true, fsm := .rearm, trace := s.trace ++ [.outcome .errUnsupportedLength none none] }
      | .bitMismatch => { d with ret := s.ret, lastOutcome := .errBitMismatch, outcStrobe := true, fsm := .rearm, trace := s.trace ++ [.outcome .errBitMismatch none none] }
      | .checksumFailed => { d with ret := s.ret, lastOutcome := .errChecksumFailed, outcStrobe := true, fsm := .rearm, trace := s.trace ++ [.outcome .errChecksumFailed none none] }) ∧
    SameButScan s d

/-- RUN_DECODE completes in every state of S_DECODE and writes only the result registers, the outcome, FSM, the trace
and the private registers of the assembly. That it completes too on a held count of 65 to 127, which no run reaches, is
the model's reading (log entry 16). -/
def Obligations.RunDecodeAlwaysCompletes : Prop :=
  ∀ s : State, s.fsm = .decode → ∃ t, exec .runDecode s = .next t ∧ (t.fsm = .resolve ∨ t.fsm = .rearm) ∧
    t = { s with
      resAddr := t.resAddr, resCmd := t.resCmd, lastOutcome := t.lastOutcome, outcStrobe := t.outcStrobe,
      fsm := t.fsm, trace := t.trace, addrSr := t.addrSr, wordSr := t.wordSr, symIdx := t.symIdx } ∧
    (t.fsm = .rearm → t.resAddr = s.resAddr ∧ t.resCmd = s.resCmd ∧ t.outcStrobe = true) ∧
    (t.fsm = .resolve → t.lastOutcome = s.lastOutcome ∧ t.outcStrobe = s.outcStrobe ∧ t.trace = s.trace)

/-- R205: a hit goes to S_PUSH with the Command pending, a miss raises RESOLVE_MISS; the queue is untouched. In a row
with equal keys, which no run reaches, the pending Command is one of those with the key (U1). -/
def Obligations.RunResolveHitsOrMisses : Prop :=
  ∀ s : State, s.fsm = .resolve →
    (∀ k : Command, keyOf (entryOf s.csActive k) = s.resCmd →
      (∀ j : Command, j ≠ k → keyOf (entryOf s.csActive j) ≠ s.resCmd) →
      exec .runResolve s = .next { s with pendCmd := k, fsm := .push, pushTmr := s.cfg.pushTimeout }) ∧
    ((∀ k : Command, keyOf (entryOf s.csActive k) ≠ s.resCmd) →
      exec .runResolve s = .next { s with
        lastOutcome := .resolveMiss, outcStrobe := true, fsm := .rearm,
        trace := s.trace ++ [.outcome .resolveMiss (some (s.resAddr, s.resCmd)) none] }) ∧
    ((∃ k : Command, keyOf (entryOf s.csActive k) = s.resCmd) →
      ∃ k : Command, keyOf (entryOf s.csActive k) = s.resCmd ∧
        exec .runResolve s = .next { s with pendCmd := k, fsm := .push, pushTmr := s.cfg.pushTimeout })

/-- R206: with room the pending Command is appended and DISPATCHED raised; on a full queue DISPATCH_TIMEOUT is raised
and the queue is untouched. QMEM takes the code at WR_PTR (R183). -/
def Obligations.RunPushDispatchesOrTimesOut : Prop :=
  ∀ s : State, s.fsm = .push →
    (s.q.length < 16 →
      exec .runPush s = .next { s with
        q := s.q ++ [s.pendCmd], qmem := s.qmem.setIfInBounds (s.wrPtr.toNat % 16) (commandCode s.pendCmd),
        lastOutcome := .dispatched, outcStrobe := true, fsm := .rearm, trace := s.trace ++ [.pushed s.pendCmd,
          .outcome .dispatched (some (s.resAddr, s.resCmd)) (some s.pendCmd)] }) ∧
    (s.q.length = 16 →
      exec .runPush s = .next { s with
        lastOutcome := .dispatchTimeout, outcStrobe := true, fsm := .rearm,
        trace := s.trace ++ [.pushFailed, .outcome .dispatchTimeout (some (s.resAddr, s.resCmd)) (some s.pendCmd)] })

/-- R207, its pseudocode: the return from every outcome; and R208, its pseudocode: HALTED, which changes nothing. -/
def Obligations.RearmReturnsAndHaltedStays : Prop :=
  ∀ s : State,
    (s.fsm = .rearm → exec .rearm s = .next { s with
      slot := .armed, capArm := true, fsm := .wait,
      waitTmr := s.cfg.captureWait, trace := s.trace ++ [.arm] }) ∧
    (s.fsm = .halt → exec .halted s = .next s)

/-- From R246 and R208: HALT is left only by reset; the INIT phase is left only by the decoder's INIT; the RUN phase is
left only by reset. -/
def Obligations.PhasesAreLeftOnlyAsStated : Prop :=
  ∀ (s t : State), step s = .next t → (∀ rest, s.inputs ≠ .reset true true :: rest) →
    (s.phase = .halt → t.phase = .halt ∧ (s.slot = .idle → t.slot = .idle)) ∧
    (s.phase = .run → t.phase = .run) ∧
    (s.phase = .init → t.phase ≠ .init →
      ∃ rest, exec .init { s.clearPulses with inputs := rest } = .next t ∧ t.cfg = s.ports)

/-- From R211 and the `require FSM == ...` of R200 and R202 to R208: no operation moves FSM but along the edges of the
table; an operation that moves FSM, and every operation of the decode loop whether it moves FSM or not, runs only where FSM
and SLOT select it; where FSM is not its state an operation of the decode loop is refused. -/
def Obligations.LoopMovesOnlyAlongItsTable : Prop :=
  ∀ (i : Instr) (s : State),
    (∀ t : State, exec i s = .next t →
      (t.fsm ≠ s.fsm → loopEdge s.fsm t.fsm = true) ∧
      (t.fsm ≠ s.fsm ∨ i ∈ loopOperations → decodeFsm (fsmCode s.fsm) (slotCode s.slot) = .ok i)) ∧
    (i ∈ loopOperations → (∀ x : Slot, decodeFsm (fsmCode s.fsm) (slotCode x) ≠ .ok i) →
      exec i s = .refused .wrongLoopState)

/-- From R31, R230 and R240: LAST_OUTCOME is written only with a pulse on outc_strobe, and the outcome written fixes
where FSM goes. -/
def Obligations.OutcomeFixesTheContinuation : Prop :=
  ∀ (i : Instr) (s t : State), exec i s = .next t → s.outcStrobe = false →
    (t.outcStrobe = false → t.lastOutcome = s.lastOutcome) ∧
    (t.outcStrobe = true →
      (t.lastOutcome = .captureTimeout → t.fsm = s.fsm ∧ t.fsm = .wait) ∧
      (t.lastOutcome = .configError → s.fsm = .init ∧ t.fsm = .halt) ∧
      (t.lastOutcome ≠ .captureTimeout → t.lastOutcome ≠ .configError → t.fsm = .rearm) ∧
      t.lastOutcome ≠ .none)

/-- From R29, R30 and R44 (d): only INIT in S_INIT writes the configuration and the active codeset, so neither changes
while FSM is not S_INIT; no operation writes the table or the ports. -/
def Obligations.OnlyInitWritesConfiguration : Prop :=
  ∀ (i : Instr) (s t : State), exec i s = .next t →
    t.rom = s.rom ∧ t.ports = s.ports ∧
    (s.fsm ≠ .init ∨ i ≠ .init → t.cfg = s.cfg ∧ t.csActive = s.csActive)

/-- From R269 and R29: after INIT the configuration ports are ignored: other values on them change nothing that an
operation does once FSM is not S_INIT, and nothing in S_INIT but what INIT and the ARM inside it (R209) do. -/
def Obligations.PortsIgnoredAfterInit : Prop :=
  ∀ (i : Instr) (s : State) (p : Cfg), s.fsm ≠ .init ∨ (i ≠ .init ∧ i ≠ .arm) →
    (∀ t, exec i s = .next t → exec i { s with ports := p } = .next { t with ports := p }) ∧
    (∀ r, exec i s = .refused r → exec i { s with ports := p } = .refused r)

/-- From R22 and R136: RES_ADDR and RES_CMD are written only by RUN_DECODE of a Normal frame that decodes, both
together. -/
def Obligations.ResultRegistersOnlyFromANormalDecode : Prop :=
  ∀ (i : Instr) (s t : State), exec i s = .next t →
    (t.resAddr = s.resAddr ∧ t.resCmd = s.resCmd) ∨
    (i = .runDecode ∧ s.fsm = .decode ∧ s.fbCount = 34 ∧ t.fsm = .resolve ∧
      CarriesField s.fb 1 t.resAddr ∧ CarriesField s.fb 17 (~~~ t.resCmd ++ t.resCmd))

/-- From 10_state.md R21, R25 and R35: the registers of a build outside the tuple (ADDR_SR, WORD_SR, SYM_IDX, RD_PTR,
QMEM, the timers, a pop in progress), the pulses, the trace and the value returned before influence no operation: two
states with one tuple, one table and one set of ports go the same way, and an operation that returns a value returns the
same one. -/
def Obligations.OnlyTheTupleMatters : Prop :=
  ∀ (i : Instr) (s s' : State), s.tuple = s'.tuple → s.rom = s'.rom → s.ports = s'.ports →
    (∀ t, exec i s = .next t → ∃ t', exec i s' = .next t' ∧ t'.tuple = t.tuple ∧
      (returnsValue i = true → t'.ret = t.ret)) ∧
    (∀ r, exec i s = .refused r → exec i s' = .refused r)

/-- From R162: the address takes no part in the look-up. -/
def Obligations.AddressTakesNoPartInLookUp : Prop :=
  ∀ (s : State) (a : BitVec 16), s.fsm = .resolve →
    ∃ t t', exec .runResolve s = .next t ∧ exec .runResolve { s with resAddr := a } = .next t' ∧
      t'.fsm = t.fsm ∧ t'.pendCmd = t.pendCmd ∧ t'.lastOutcome = t.lastOutcome ∧ t'.q = t.q

/-! ### Invariants and whole runs -/

/-- From R44 (a), (c), (e), R208 and R183: every step keeps the invariant. -/
def Obligations.EveryStepKeepsTheInvariant : Prop :=
  ∀ s t : State, s.Inv → step s = .next t → t.Inv

/-- From R212 and R61, as an invariant: every step keeps the order of the events: ARM, DELIVER, exactly one outcome,
ARM; an append exactly with DISPATCHED; CAPTURE_TIMEOUT only between an ARM and the next DELIVER. -/
def Obligations.EveryStepKeepsEventOrder : Prop :=
  ∀ s t : State, s.Inv → s.traceInOrder → step s = .next t → t.traceInOrder

/-- From R31: LAST_OUTCOME is the code of the last OUTCOME event since reset, at every step. -/
def Obligations.LastOutcomeIsTheLastReported : Prop :=
  ∀ s t : State, lastOutcomeOf s.trace = s.lastOutcome → step s = .next t → lastOutcomeOf t.trace = t.lastOutcome

/-- From R213: from every state of the RUN phase with a Frame in the slot, the agents by themselves bring the decoder back
to S_WAIT with the capture armed: at most five steps of its own, and at most the ticks of the push timer spent waiting for
room. While a pop is in progress an edge is three steps of the model: the edge and the turns of its two sides (log entry
5). -/
def Obligations.LoopReturnsToWait : Prop :=
  ∀ s : State, s.Inv → s.phase = .run → s.slot = .full → s.inputs = [] →
    ∃ k t, k ≤ (if s.popBusy then 3 else 1) * (5 + max s.pushTmr.toNat s.cfg.pushTimeout.toNat) ∧
      Sys2Proof.core.run k s = .next t ∧ t.fsm = .wait ∧ t.slot = .armed

/-- From R184 and R215, for the pop (LoopReturnsToWait has the push): with nothing scheduled a pop in progress completes,
at the latest at the last sample of its timer, and shows its end on the ports. An edge is three steps of the model: the
edge and the turns of its two sides (log entry 5). -/
def Obligations.PopInProgressCompletes : Prop :=
  ∀ s : State, s.Inv → s.inputs = [] → s.popBusy = true →
    ∃ k t, k ≤ 3 * (s.popTmr.toNat + 1) ∧ Sys2Proof.core.run k s = .next t ∧ t.popBusy = false ∧ t.popDone = true

/-- 95_test_vectors.md S6 for every address, command and mode: a transmitted Frame whose byte is the key of a Command,
with room in the queue, ends after five decoder steps with the Command at the tail of the queue, DISPATCHED reported,
the result on the ports and the capture armed again. -/
def Obligations.KeyPressReachesTheQueue : Prop :=
  ∀ (s : State) (a : BitVec 16) (c : BitVec 8) (k : Command) (old : FrameBuffer),
    s.fsm = .wait → s.slot = .full → s.DecoderTurns 5 → s.fbCount = 34 →
    s.fb = writeFrame old (encFrame s.cfg.variant a c) → s.q.length < 16 →
    keyOf (entryOf s.csActive k) = c → (∀ j : Command, j ≠ k → keyOf (entryOf s.csActive j) ≠ c) →
    ∃ t, Sys2Proof.core.run 5 s = .next t ∧ t.q = s.q ++ [k] ∧ t.lastOutcome = .dispatched ∧ t.resAddr = a ∧
      t.resCmd = c ∧ t.pendCmd = k ∧ t.fsm = .wait ∧ t.slot = .armed ∧
      t.trace = s.trace ++ [.pushed k, .outcome .dispatched (some (a, c)) (some k), .arm]

/-- From R139 and 95_test_vectors.md S5: a valid Repeat frame ends after three decoder steps with REPEAT_IGNORED and
the queue, the result registers and the pending Command as before. -/
def Obligations.RepeatKeepsQueueAndResult : Prop :=
  ∀ s : State, s.fsm = .wait → s.slot = .full → s.DecoderTurns 3 → s.fbCount = 2 →
    IsRpt s.cfg.variant (fbRead s.fb 0) →
    ∃ t, Sys2Proof.core.run 3 s = .next t ∧ t.lastOutcome = .repeatIgnored ∧ t.q = s.q ∧ t.resAddr = s.resAddr ∧
      t.resCmd = s.resCmd ∧ t.pendCmd = s.pendCmd ∧ t.fsm = .wait ∧ t.slot = .armed ∧
      t.trace = s.trace ++ [.outcome .repeatIgnored none none, .arm]

/-- From R171, for the push: on a queue that stays full the decoder samples pushTmr + 1 times; until then nothing but
the timer changes (and the scheduled ticks of its clock are taken); on the last sample DISPATCH_TIMEOUT is raised and the
queue is as it was. -/
def Obligations.FullQueueTimesOutAfterItsSamples : Prop :=
  ∀ s : State, s.fsm = .push → s.q.length = 16 → s.DecoderTurns (s.pushTmr.toNat + 1) → s.capArm = false →
    s.outcStrobe = false → s.popPort = .low →
    (∀ k ≤ s.pushTmr.toNat, Sys2Proof.core.run k s = .next
      { s with pushTmr := s.pushTmr - BitVec.ofNat 32 k, inputs := s.inputs.drop k }) ∧
    ∃ t, Sys2Proof.core.run (s.pushTmr.toNat + 1) s = .next t ∧ t.lastOutcome = .dispatchTimeout ∧ t.fsm = .rearm ∧
      t.q = s.q

/-- From R171, for the pop, one clk_c sample: an entry is taken at once, an empty queue ends the pop on the last sample
and counts before it; with no pop in progress nothing happens. That the decoder's pulses of the last step fall at this
tick too is the model's choice (log entry 15). -/
def Obligations.PopSamplesOnceATick : Prop :=
  ∀ (s : State) (rest : List Input), s.inputs = .clkC :: rest →
    (s.popBusy = true → s.q ≠ [] → step s = exec .popOk { s.clearPulses with inputs := rest }) ∧
    (s.popBusy = true → s.q = [] → s.popTmr = 0 → step s = exec .popEmpty { s.clearPulses with inputs := rest }) ∧
    (s.popBusy = true → s.q = [] → s.popTmr ≠ 0 →
      step s = .next { s.clearPulses with inputs := rest, popTmr := s.popTmr - 1 }) ∧
    (s.popBusy = false → step s = .next { s.clearPulses with inputs := rest })

/-- From R180: on one edge of a one-clock build, scheduled or the agents' own, a waiting push on a full queue and a
waiting pop both succeed (pop first), and so do a waiting push and a waiting pop on an empty queue (push first):
neither call fails that could succeed. That unscheduled turns share an edge is the model's choice (log entry 5). -/
def Obligations.OneEdgeServesPushAndPop : Prop :=
  ∀ s : State, s.fsm = .push → s.popBusy = true → s.inputs = [.clkBoth] ∨ s.inputs = [] →
    (s.q.length = 16 → ∃ t e rest, s.q = e :: rest ∧ Sys2Proof.core.run 3 s = .next t ∧
      t.q = rest ++ [s.pendCmd] ∧ t.lastOutcome = .dispatched ∧
      t.trace = s.trace ++ [.popped e, .pushed s.pendCmd,
        .outcome .dispatched (some (s.resAddr, s.resCmd)) (some s.pendCmd)]) ∧
    (s.q = [] → ∃ t, Sys2Proof.core.run 3 s = .next t ∧ t.q = [] ∧ t.lastOutcome = .dispatched ∧
      t.popPort = .hit s.pendCmd ∧
      t.trace = s.trace ++ [.pushed s.pendCmd,
        .outcome .dispatched (some (s.resAddr, s.resCmd)) (some s.pendCmd), .popped s.pendCmd])

/-! ### Word formats -/

/-- R80: the four fields of a Symbol word, and the packing that puts them there. -/
def Obligations.SymbolWordFields : Prop :=
  ∀ (l0 l1 : BitVec 1) (d0 d1 : Duration) (s : State),
    exec (.symbolWord (packSymbol l0 d0 l1 d1)) s = .next { s with ret := .symbol l0 d0 l1 d1 } ∧
    (packSymbol l0 d0 l1 d1).toNat = d0.toNat + 2 ^ 24 * l0.toNat + 2 ^ 25 * d1.toNat + 2 ^ 49 * l1.toNat

/-- From R91 and R89: the two bytes of a codeset entry and of a raw command word. -/
def Obligations.EntryAndCommandWordBytes : Prop :=
  ∀ (hi lo : BitVec 8) (s : State),
    exec (.codesetEntry (hi ++ lo)) s = .next { s with ret := .entry hi lo } ∧
    exec (.rawCommandWord (hi ++ lo)) s = .next { s with ret := .rawWord hi lo }

/-- The Commands by their codes (R92) and the outcomes by theirs (R230); the reserved codes are refused (U15). -/
def Obligations.CodesNameCommandsAndOutcomes : Prop :=
  ∀ s : State,
    (∀ p ∈ [((0 : BitVec 3), Command.playPause), (1, .previous), (2, .next), (3, .mute), (4, .volumeUp), (5, .volumeDown)],
      exec (.commandCode p.1) s = .next { s with ret := .command (some p.2) }) ∧
    (∀ x : BitVec 3, 6 ≤ x.toNat → exec (.commandCode x) s = .refused .reservedCommandCode) ∧
    (∀ p ∈ [((0 : BitVec 4), OutcomeCode.none), (1, .dispatched), (2, .repeatIgnored), (3, .errUnsupportedLength),
        (4, .errBitMismatch), (5, .errChecksumFailed), (6, .resolveMiss), (7, .dispatchTimeout), (8, .captureTimeout),
        (9, .configError)],
      exec (.outcomeCode p.1) s = .next { s with ret := .outcome p.2 }) ∧
    (∀ x : BitVec 4, 10 ≤ x.toNat → exec (.outcomeCode x) s = .refused .reservedOutcomeCode)
end

