-- ==== Sys2Proof/Laws/State.lean ====
section
/-! SUPPORT. One lemma per field per update of the state: what each named operation leaves in each field. -/

namespace Sys2Proof.Machine

/-! ### setRet -/

@[simp] theorem State.setRet_fsm (s : State) (v : Ret) : (s.setRet v).fsm = s.fsm := rfl
@[simp] theorem State.setRet_cfg (s : State) (v : Ret) : (s.setRet v).cfg = s.cfg := rfl
@[simp] theorem State.setRet_csActive (s : State) (v : Ret) : (s.setRet v).csActive = s.csActive := rfl
@[simp] theorem State.setRet_slot (s : State) (v : Ret) : (s.setRet v).slot = s.slot := rfl
@[simp] theorem State.setRet_fbCount (s : State) (v : Ret) : (s.setRet v).fbCount = s.fbCount := rfl
@[simp] theorem State.setRet_fb (s : State) (v : Ret) : (s.setRet v).fb = s.fb := rfl
@[simp] theorem State.setRet_resAddr (s : State) (v : Ret) : (s.setRet v).resAddr = s.resAddr := rfl
@[simp] theorem State.setRet_resCmd (s : State) (v : Ret) : (s.setRet v).resCmd = s.resCmd := rfl
@[simp] theorem State.setRet_pendCmd (s : State) (v : Ret) : (s.setRet v).pendCmd = s.pendCmd := rfl
@[simp] theorem State.setRet_lastOutcome (s : State) (v : Ret) : (s.setRet v).lastOutcome = s.lastOutcome := rfl
@[simp] theorem State.setRet_q (s : State) (v : Ret) : (s.setRet v).q = s.q := rfl
@[simp] theorem State.setRet_addrSr (s : State) (v : Ret) : (s.setRet v).addrSr = s.addrSr := rfl
@[simp] theorem State.setRet_wordSr (s : State) (v : Ret) : (s.setRet v).wordSr = s.wordSr := rfl
@[simp] theorem State.setRet_symIdx (s : State) (v : Ret) : (s.setRet v).symIdx = s.symIdx := rfl
@[simp] theorem State.setRet_rdPtr (s : State) (v : Ret) : (s.setRet v).rdPtr = s.rdPtr := rfl
@[simp] theorem State.setRet_qmem (s : State) (v : Ret) : (s.setRet v).qmem = s.qmem := rfl
@[simp] theorem State.setRet_waitTmr (s : State) (v : Ret) : (s.setRet v).waitTmr = s.waitTmr := rfl
@[simp] theorem State.setRet_pushTmr (s : State) (v : Ret) : (s.setRet v).pushTmr = s.pushTmr := rfl
@[simp] theorem State.setRet_popTmr (s : State) (v : Ret) : (s.setRet v).popTmr = s.popTmr := rfl
@[simp] theorem State.setRet_popBusy (s : State) (v : Ret) : (s.setRet v).popBusy = s.popBusy := rfl
@[simp] theorem State.setRet_capArm (s : State) (v : Ret) : (s.setRet v).capArm = s.capArm := rfl
@[simp] theorem State.setRet_outcStrobe (s : State) (v : Ret) : (s.setRet v).outcStrobe = s.outcStrobe := rfl
@[simp] theorem State.setRet_popPort (s : State) (v : Ret) : (s.setRet v).popPort = s.popPort := rfl
@[simp] theorem State.setRet_ports (s : State) (v : Ret) : (s.setRet v).ports = s.ports := rfl
@[simp] theorem State.setRet_rom (s : State) (v : Ret) : (s.setRet v).rom = s.rom := rfl
@[simp] theorem State.setRet_trace (s : State) (v : Ret) : (s.setRet v).trace = s.trace := rfl
@[simp] theorem State.setRet_ret (s : State) (v : Ret) : (s.setRet v).ret = v := rfl
@[simp] theorem State.setRet_inputs (s : State) (v : Ret) : (s.setRet v).inputs = s.inputs := rfl

/-! ### record -/

@[simp] theorem State.record_fsm (s : State) (e : Event) : (s.record e).fsm = s.fsm := rfl
@[simp] theorem State.record_cfg (s : State) (e : Event) : (s.record e).cfg = s.cfg := rfl
@[simp] theorem State.record_csActive (s : State) (e : Event) : (s.record e).csActive = s.csActive := rfl
@[simp] theorem State.record_slot (s : State) (e : Event) : (s.record e).slot = s.slot := rfl
@[simp] theorem State.record_fbCount (s : State) (e : Event) : (s.record e).fbCount = s.fbCount := rfl
@[simp] theorem State.record_fb (s : State) (e : Event) : (s.record e).fb = s.fb := rfl
@[simp] theorem State.record_resAddr (s : State) (e : Event) : (s.record e).resAddr = s.resAddr := rfl
@[simp] theorem State.record_resCmd (s : State) (e : Event) : (s.record e).resCmd = s.resCmd := rfl
@[simp] theorem State.record_pendCmd (s : State) (e : Event) : (s.record e).pendCmd = s.pendCmd := rfl
@[simp] theorem State.record_lastOutcome (s : State) (e : Event) : (s.record e).lastOutcome = s.lastOutcome := rfl
@[simp] theorem State.record_q (s : State) (e : Event) : (s.record e).q = s.q := rfl
@[simp] theorem State.record_addrSr (s : State) (e : Event) : (s.record e).addrSr = s.addrSr := rfl
@[simp] theorem State.record_wordSr (s : State) (e : Event) : (s.record e).wordSr = s.wordSr := rfl
@[simp] theorem State.record_symIdx (s : State) (e : Event) : (s.record e).symIdx = s.symIdx := rfl
@[simp] theorem State.record_rdPtr (s : State) (e : Event) : (s.record e).rdPtr = s.rdPtr := rfl
@[simp] theorem State.record_qmem (s : State) (e : Event) : (s.record e).qmem = s.qmem := rfl
@[simp] theorem State.record_waitTmr (s : State) (e : Event) : (s.record e).waitTmr = s.waitTmr := rfl
@[simp] theorem State.record_pushTmr (s : State) (e : Event) : (s.record e).pushTmr = s.pushTmr := rfl
@[simp] theorem State.record_popTmr (s : State) (e : Event) : (s.record e).popTmr = s.popTmr := rfl
@[simp] theorem State.record_popBusy (s : State) (e : Event) : (s.record e).popBusy = s.popBusy := rfl
@[simp] theorem State.record_capArm (s : State) (e : Event) : (s.record e).capArm = s.capArm := rfl
@[simp] theorem State.record_outcStrobe (s : State) (e : Event) : (s.record e).outcStrobe = s.outcStrobe := rfl
@[simp] theorem State.record_popPort (s : State) (e : Event) : (s.record e).popPort = s.popPort := rfl
@[simp] theorem State.record_ports (s : State) (e : Event) : (s.record e).ports = s.ports := rfl
@[simp] theorem State.record_rom (s : State) (e : Event) : (s.record e).rom = s.rom := rfl
@[simp] theorem State.record_trace (s : State) (e : Event) : (s.record e).trace = s.trace ++ [e] := rfl
@[simp] theorem State.record_ret (s : State) (e : Event) : (s.record e).ret = s.ret := rfl
@[simp] theorem State.record_inputs (s : State) (e : Event) : (s.record e).inputs = s.inputs := rfl

/-! ### clearPulses -/

@[simp] theorem State.clearPulses_fsm (s : State) : (s.clearPulses).fsm = s.fsm := rfl
@[simp] theorem State.clearPulses_cfg (s : State) : (s.clearPulses).cfg = s.cfg := rfl
@[simp] theorem State.clearPulses_csActive (s : State) : (s.clearPulses).csActive = s.csActive := rfl
@[simp] theorem State.clearPulses_slot (s : State) : (s.clearPulses).slot = s.slot := rfl
@[simp] theorem State.clearPulses_fbCount (s : State) : (s.clearPulses).fbCount = s.fbCount := rfl
@[simp] theorem State.clearPulses_fb (s : State) : (s.clearPulses).fb = s.fb := rfl
@[simp] theorem State.clearPulses_resAddr (s : State) : (s.clearPulses).resAddr = s.resAddr := rfl
@[simp] theorem State.clearPulses_resCmd (s : State) : (s.clearPulses).resCmd = s.resCmd := rfl
@[simp] theorem State.clearPulses_pendCmd (s : State) : (s.clearPulses).pendCmd = s.pendCmd := rfl
@[simp] theorem State.clearPulses_lastOutcome (s : State) : (s.clearPulses).lastOutcome = s.lastOutcome := rfl
@[simp] theorem State.clearPulses_q (s : State) : (s.clearPulses).q = s.q := rfl
@[simp] theorem State.clearPulses_addrSr (s : State) : (s.clearPulses).addrSr = s.addrSr := rfl
@[simp] theorem State.clearPulses_wordSr (s : State) : (s.clearPulses).wordSr = s.wordSr := rfl
@[simp] theorem State.clearPulses_symIdx (s : State) : (s.clearPulses).symIdx = s.symIdx := rfl
@[simp] theorem State.clearPulses_rdPtr (s : State) : (s.clearPulses).rdPtr = s.rdPtr := rfl
@[simp] theorem State.clearPulses_qmem (s : State) : (s.clearPulses).qmem = s.qmem := rfl
@[simp] theorem State.clearPulses_waitTmr (s : State) : (s.clearPulses).waitTmr = s.waitTmr := rfl
@[simp] theorem State.clearPulses_pushTmr (s : State) : (s.clearPulses).pushTmr = s.pushTmr := rfl
@[simp] theorem State.clearPulses_popTmr (s : State) : (s.clearPulses).popTmr = s.popTmr := rfl
@[simp] theorem State.clearPulses_popBusy (s : State) : (s.clearPulses).popBusy = s.popBusy := rfl
@[simp] theorem State.clearPulses_capArm (s : State) : (s.clearPulses).capArm = false := rfl
@[simp] theorem State.clearPulses_outcStrobe (s : State) : (s.clearPulses).outcStrobe = false := rfl
@[simp] theorem State.clearPulses_popPort (s : State) : (s.clearPulses).popPort = .low := rfl
@[simp] theorem State.clearPulses_ports (s : State) : (s.clearPulses).ports = s.ports := rfl
@[simp] theorem State.clearPulses_rom (s : State) : (s.clearPulses).rom = s.rom := rfl
@[simp] theorem State.clearPulses_trace (s : State) : (s.clearPulses).trace = s.trace := rfl
@[simp] theorem State.clearPulses_ret (s : State) : (s.clearPulses).ret = s.ret := rfl
@[simp] theorem State.clearPulses_inputs (s : State) : (s.clearPulses).inputs = s.inputs := rfl

/-! ### raise -/

@[simp] theorem State.raise_fsm (s : State) (o : OutcomeCode) : (s.raise o).fsm = fsmAfter o s.fsm := rfl
@[simp] theorem State.raise_cfg (s : State) (o : OutcomeCode) : (s.raise o).cfg = s.cfg := rfl
@[simp] theorem State.raise_csActive (s : State) (o : OutcomeCode) : (s.raise o).csActive = s.csActive := rfl
@[simp] theorem State.raise_slot (s : State) (o : OutcomeCode) : (s.raise o).slot = s.slot := rfl
@[simp] theorem State.raise_fbCount (s : State) (o : OutcomeCode) : (s.raise o).fbCount = s.fbCount := rfl
@[simp] theorem State.raise_fb (s : State) (o : OutcomeCode) : (s.raise o).fb = s.fb := rfl
@[simp] theorem State.raise_resAddr (s : State) (o : OutcomeCode) : (s.raise o).resAddr = s.resAddr := rfl
@[simp] theorem State.raise_resCmd (s : State) (o : OutcomeCode) : (s.raise o).resCmd = s.resCmd := rfl
@[simp] theorem State.raise_pendCmd (s : State) (o : OutcomeCode) : (s.raise o).pendCmd = s.pendCmd := rfl
@[simp] theorem State.raise_lastOutcome (s : State) (o : OutcomeCode) : (s.raise o).lastOutcome = o := rfl
@[simp] theorem State.raise_q (s : State) (o : OutcomeCode) : (s.raise o).q = s.q := rfl
@[simp] theorem State.raise_addrSr (s : State) (o : OutcomeCode) : (s.raise o).addrSr = s.addrSr := rfl
@[simp] theorem State.raise_wordSr (s : State) (o : OutcomeCode) : (s.raise o).wordSr = s.wordSr := rfl
@[simp] theorem State.raise_symIdx (s : State) (o : OutcomeCode) : (s.raise o).symIdx = s.symIdx := rfl
@[simp] theorem State.raise_rdPtr (s : State) (o : OutcomeCode) : (s.raise o).rdPtr = s.rdPtr := rfl
@[simp] theorem State.raise_qmem (s : State) (o : OutcomeCode) : (s.raise o).qmem = s.qmem := rfl
@[simp] theorem State.raise_waitTmr (s : State) (o : OutcomeCode) : (s.raise o).waitTmr = s.waitTmr := rfl
@[simp] theorem State.raise_pushTmr (s : State) (o : OutcomeCode) : (s.raise o).pushTmr = s.pushTmr := rfl
@[simp] theorem State.raise_popTmr (s : State) (o : OutcomeCode) : (s.raise o).popTmr = s.popTmr := rfl
@[simp] theorem State.raise_popBusy (s : State) (o : OutcomeCode) : (s.raise o).popBusy = s.popBusy := rfl
@[simp] theorem State.raise_capArm (s : State) (o : OutcomeCode) : (s.raise o).capArm = s.capArm := rfl
@[simp] theorem State.raise_outcStrobe (s : State) (o : OutcomeCode) : (s.raise o).outcStrobe = true := rfl
@[simp] theorem State.raise_popPort (s : State) (o : OutcomeCode) : (s.raise o).popPort = s.popPort := rfl
@[simp] theorem State.raise_ports (s : State) (o : OutcomeCode) : (s.raise o).ports = s.ports := rfl
@[simp] theorem State.raise_rom (s : State) (o : OutcomeCode) : (s.raise o).rom = s.rom := rfl
@[simp] theorem State.raise_trace (s : State) (o : OutcomeCode) : (s.raise o).trace = s.trace ++ [s.outcomeEvent o] := rfl
@[simp] theorem State.raise_ret (s : State) (o : OutcomeCode) : (s.raise o).ret = s.ret := rfl
@[simp] theorem State.raise_inputs (s : State) (o : OutcomeCode) : (s.raise o).inputs = s.inputs := rfl

/-! ### armCapture -/

@[simp] theorem State.armCapture_fsm (s : State) : (s.armCapture).fsm = s.fsm := rfl
@[simp] theorem State.armCapture_cfg (s : State) : (s.armCapture).cfg = s.cfg := rfl
@[simp] theorem State.armCapture_csActive (s : State) : (s.armCapture).csActive = s.csActive := rfl
@[simp] theorem State.armCapture_slot (s : State) : (s.armCapture).slot = .armed := rfl
@[simp] theorem State.armCapture_fbCount (s : State) : (s.armCapture).fbCount = s.fbCount := rfl
@[simp] theorem State.armCapture_fb (s : State) : (s.armCapture).fb = s.fb := rfl
@[simp] theorem State.armCapture_resAddr (s : State) : (s.armCapture).resAddr = s.resAddr := rfl
@[simp] theorem State.armCapture_resCmd (s : State) : (s.armCapture).resCmd = s.resCmd := rfl
@[simp] theorem State.armCapture_pendCmd (s : State) : (s.armCapture).pendCmd = s.pendCmd := rfl
@[simp] theorem State.armCapture_lastOutcome (s : State) : (s.armCapture).lastOutcome = s.lastOutcome := rfl
@[simp] theorem State.armCapture_q (s : State) : (s.armCapture).q = s.q := rfl
@[simp] theorem State.armCapture_addrSr (s : State) : (s.armCapture).addrSr = s.addrSr := rfl
@[simp] theorem State.armCapture_wordSr (s : State) : (s.armCapture).wordSr = s.wordSr := rfl
@[simp] theorem State.armCapture_symIdx (s : State) : (s.armCapture).symIdx = s.symIdx := rfl
@[simp] theorem State.armCapture_rdPtr (s : State) : (s.armCapture).rdPtr = s.rdPtr := rfl
@[simp] theorem State.armCapture_qmem (s : State) : (s.armCapture).qmem = s.qmem := rfl
@[simp] theorem State.armCapture_waitTmr (s : State) : (s.armCapture).waitTmr = s.waitTmr := rfl
@[simp] theorem State.armCapture_pushTmr (s : State) : (s.armCapture).pushTmr = s.pushTmr := rfl
@[simp] theorem State.armCapture_popTmr (s : State) : (s.armCapture).popTmr = s.popTmr := rfl
@[simp] theorem State.armCapture_popBusy (s : State) : (s.armCapture).popBusy = s.popBusy := rfl
@[simp] theorem State.armCapture_capArm (s : State) : (s.armCapture).capArm = true := rfl
@[simp] theorem State.armCapture_outcStrobe (s : State) : (s.armCapture).outcStrobe = s.outcStrobe := rfl
@[simp] theorem State.armCapture_popPort (s : State) : (s.armCapture).popPort = s.popPort := rfl
@[simp] theorem State.armCapture_ports (s : State) : (s.armCapture).ports = s.ports := rfl
@[simp] theorem State.armCapture_rom (s : State) : (s.armCapture).rom = s.rom := rfl
@[simp] theorem State.armCapture_trace (s : State) : (s.armCapture).trace = s.trace ++ [.arm] := rfl
@[simp] theorem State.armCapture_ret (s : State) : (s.armCapture).ret = s.ret := rfl
@[simp] theorem State.armCapture_inputs (s : State) : (s.armCapture).inputs = s.inputs := rfl

/-! ### enterWait -/

@[simp] theorem State.enterWait_fsm (s : State) : (s.enterWait).fsm = .wait := rfl
@[simp] theorem State.enterWait_cfg (s : State) : (s.enterWait).cfg = s.cfg := rfl
@[simp] theorem State.enterWait_csActive (s : State) : (s.enterWait).csActive = s.csActive := rfl
@[simp] theorem State.enterWait_slot (s : State) : (s.enterWait).slot = s.slot := rfl
@[simp] theorem State.enterWait_fbCount (s : State) : (s.enterWait).fbCount = s.fbCount := rfl
@[simp] theorem State.enterWait_fb (s : State) : (s.enterWait).fb = s.fb := rfl
@[simp] theorem State.enterWait_resAddr (s : State) : (s.enterWait).resAddr = s.resAddr := rfl
@[simp] theorem State.enterWait_resCmd (s : State) : (s.enterWait).resCmd = s.resCmd := rfl
@[simp] theorem State.enterWait_pendCmd (s : State) : (s.enterWait).pendCmd = s.pendCmd := rfl
@[simp] theorem State.enterWait_lastOutcome (s : State) : (s.enterWait).lastOutcome = s.lastOutcome := rfl
@[simp] theorem State.enterWait_q (s : State) : (s.enterWait).q = s.q := rfl
@[simp] theorem State.enterWait_addrSr (s : State) : (s.enterWait).addrSr = s.addrSr := rfl
@[simp] theorem State.enterWait_wordSr (s : State) : (s.enterWait).wordSr = s.wordSr := rfl
@[simp] theorem State.enterWait_symIdx (s : State) : (s.enterWait).symIdx = s.symIdx := rfl
@[simp] theorem State.enterWait_rdPtr (s : State) : (s.enterWait).rdPtr = s.rdPtr := rfl
@[simp] theorem State.enterWait_qmem (s : State) : (s.enterWait).qmem = s.qmem := rfl
@[simp] theorem State.enterWait_waitTmr (s : State) : (s.enterWait).waitTmr = s.cfg.captureWait := rfl
@[simp] theorem State.enterWait_pushTmr (s : State) : (s.enterWait).pushTmr = s.pushTmr := rfl
@[simp] theorem State.enterWait_popTmr (s : State) : (s.enterWait).popTmr = s.popTmr := rfl
@[simp] theorem State.enterWait_popBusy (s : State) : (s.enterWait).popBusy = s.popBusy := rfl
@[simp] theorem State.enterWait_capArm (s : State) : (s.enterWait).capArm = s.capArm := rfl
@[simp] theorem State.enterWait_outcStrobe (s : State) : (s.enterWait).outcStrobe = s.outcStrobe := rfl
@[simp] theorem State.enterWait_popPort (s : State) : (s.enterWait).popPort = s.popPort := rfl
@[simp] theorem State.enterWait_ports (s : State) : (s.enterWait).ports = s.ports := rfl
@[simp] theorem State.enterWait_rom (s : State) : (s.enterWait).rom = s.rom := rfl
@[simp] theorem State.enterWait_trace (s : State) : (s.enterWait).trace = s.trace := rfl
@[simp] theorem State.enterWait_ret (s : State) : (s.enterWait).ret = s.ret := rfl
@[simp] theorem State.enterWait_inputs (s : State) : (s.enterWait).inputs = s.inputs := rfl

/-! ### enqueue -/

@[simp] theorem State.enqueue_fsm (s : State) (c : Command) : (s.enqueue c).fsm = s.fsm := rfl
@[simp] theorem State.enqueue_cfg (s : State) (c : Command) : (s.enqueue c).cfg = s.cfg := rfl
@[simp] theorem State.enqueue_csActive (s : State) (c : Command) : (s.enqueue c).csActive = s.csActive := rfl
@[simp] theorem State.enqueue_slot (s : State) (c : Command) : (s.enqueue c).slot = s.slot := rfl
@[simp] theorem State.enqueue_fbCount (s : State) (c : Command) : (s.enqueue c).fbCount = s.fbCount := rfl
@[simp] theorem State.enqueue_fb (s : State) (c : Command) : (s.enqueue c).fb = s.fb := rfl
@[simp] theorem State.enqueue_resAddr (s : State) (c : Command) : (s.enqueue c).resAddr = s.resAddr := rfl
@[simp] theorem State.enqueue_resCmd (s : State) (c : Command) : (s.enqueue c).resCmd = s.resCmd := rfl
@[simp] theorem State.enqueue_pendCmd (s : State) (c : Command) : (s.enqueue c).pendCmd = s.pendCmd := rfl
@[simp] theorem State.enqueue_lastOutcome (s : State) (c : Command) : (s.enqueue c).lastOutcome = s.lastOutcome := rfl
@[simp] theorem State.enqueue_q (s : State) (c : Command) : (s.enqueue c).q = s.q ++ [c] := rfl
@[simp] theorem State.enqueue_addrSr (s : State) (c : Command) : (s.enqueue c).addrSr = s.addrSr := rfl
@[simp] theorem State.enqueue_wordSr (s : State) (c : Command) : (s.enqueue c).wordSr = s.wordSr := rfl
@[simp] theorem State.enqueue_symIdx (s : State) (c : Command) : (s.enqueue c).symIdx = s.symIdx := rfl
@[simp] theorem State.enqueue_rdPtr (s : State) (c : Command) : (s.enqueue c).rdPtr = s.rdPtr := rfl
@[simp] theorem State.enqueue_qmem (s : State) (c : Command) :
    (s.enqueue c).qmem = s.qmem.setIfInBounds (s.wrPtr.toNat % Config.fifoDepth) (commandCode c) := rfl
@[simp] theorem State.enqueue_waitTmr (s : State) (c : Command) : (s.enqueue c).waitTmr = s.waitTmr := rfl
@[simp] theorem State.enqueue_pushTmr (s : State) (c : Command) : (s.enqueue c).pushTmr = s.pushTmr := rfl
@[simp] theorem State.enqueue_popTmr (s : State) (c : Command) : (s.enqueue c).popTmr = s.popTmr := rfl
@[simp] theorem State.enqueue_popBusy (s : State) (c : Command) : (s.enqueue c).popBusy = s.popBusy := rfl
@[simp] theorem State.enqueue_capArm (s : State) (c : Command) : (s.enqueue c).capArm = s.capArm := rfl
@[simp] theorem State.enqueue_outcStrobe (s : State) (c : Command) : (s.enqueue c).outcStrobe = s.outcStrobe := rfl
@[simp] theorem State.enqueue_popPort (s : State) (c : Command) : (s.enqueue c).popPort = s.popPort := rfl
@[simp] theorem State.enqueue_ports (s : State) (c : Command) : (s.enqueue c).ports = s.ports := rfl
@[simp] theorem State.enqueue_rom (s : State) (c : Command) : (s.enqueue c).rom = s.rom := rfl
@[simp] theorem State.enqueue_trace (s : State) (c : Command) : (s.enqueue c).trace = s.trace ++ [.pushed c] := rfl
@[simp] theorem State.enqueue_ret (s : State) (c : Command) : (s.enqueue c).ret = s.ret := rfl
@[simp] theorem State.enqueue_inputs (s : State) (c : Command) : (s.enqueue c).inputs = s.inputs := rfl

/-! ### failPush -/

@[simp] theorem State.failPush_fsm (s : State) : (s.failPush).fsm = s.fsm := rfl
@[simp] theorem State.failPush_cfg (s : State) : (s.failPush).cfg = s.cfg := rfl
@[simp] theorem State.failPush_csActive (s : State) : (s.failPush).csActive = s.csActive := rfl
@[simp] theorem State.failPush_slot (s : State) : (s.failPush).slot = s.slot := rfl
@[simp] theorem State.failPush_fbCount (s : State) : (s.failPush).fbCount = s.fbCount := rfl
@[simp] theorem State.failPush_fb (s : State) : (s.failPush).fb = s.fb := rfl
@[simp] theorem State.failPush_resAddr (s : State) : (s.failPush).resAddr = s.resAddr := rfl
@[simp] theorem State.failPush_resCmd (s : State) : (s.failPush).resCmd = s.resCmd := rfl
@[simp] theorem State.failPush_pendCmd (s : State) : (s.failPush).pendCmd = s.pendCmd := rfl
@[simp] theorem State.failPush_lastOutcome (s : State) : (s.failPush).lastOutcome = s.lastOutcome := rfl
@[simp] theorem State.failPush_q (s : State) : (s.failPush).q = s.q := rfl
@[simp] theorem State.failPush_addrSr (s : State) : (s.failPush).addrSr = s.addrSr := rfl
@[simp] theorem State.failPush_wordSr (s : State) : (s.failPush).wordSr = s.wordSr := rfl
@[simp] theorem State.failPush_symIdx (s : State) : (s.failPush).symIdx = s.symIdx := rfl
@[simp] theorem State.failPush_rdPtr (s : State) : (s.failPush).rdPtr = s.rdPtr := rfl
@[simp] theorem State.failPush_qmem (s : State) : (s.failPush).qmem = s.qmem := rfl
@[simp] theorem State.failPush_waitTmr (s : State) : (s.failPush).waitTmr = s.waitTmr := rfl
@[simp] theorem State.failPush_pushTmr (s : State) : (s.failPush).pushTmr = s.pushTmr := rfl
@[simp] theorem State.failPush_popTmr (s : State) : (s.failPush).popTmr = s.popTmr := rfl
@[simp] theorem State.failPush_popBusy (s : State) : (s.failPush).popBusy = s.popBusy := rfl
@[simp] theorem State.failPush_capArm (s : State) : (s.failPush).capArm = s.capArm := rfl
@[simp] theorem State.failPush_outcStrobe (s : State) : (s.failPush).outcStrobe = s.outcStrobe := rfl
@[simp] theorem State.failPush_popPort (s : State) : (s.failPush).popPort = s.popPort := rfl
@[simp] theorem State.failPush_ports (s : State) : (s.failPush).ports = s.ports := rfl
@[simp] theorem State.failPush_rom (s : State) : (s.failPush).rom = s.rom := rfl
@[simp] theorem State.failPush_trace (s : State) : (s.failPush).trace = s.trace ++ [.pushFailed] := rfl
@[simp] theorem State.failPush_ret (s : State) : (s.failPush).ret = s.ret := rfl
@[simp] theorem State.failPush_inputs (s : State) : (s.failPush).inputs = s.inputs := rfl

/-! ### dequeue -/

@[simp] theorem State.dequeue_fsm (s : State) (c : Command) (rest : List Command) : (s.dequeue c rest).fsm = s.fsm := rfl
@[simp] theorem State.dequeue_cfg (s : State) (c : Command) (rest : List Command) : (s.dequeue c rest).cfg = s.cfg := rfl
@[simp] theorem State.dequeue_csActive (s : State) (c : Command) (rest : List Command) : (s.dequeue c rest).csActive = s.csActive := rfl
@[simp] theorem State.dequeue_slot (s : State) (c : Command) (rest : List Command) : (s.dequeue c rest).slot = s.slot := rfl
@[simp] theorem State.dequeue_fbCount (s : State) (c : Command) (rest : List Command) : (s.dequeue c rest).fbCount = s.fbCount := rfl
@[simp] theorem State.dequeue_fb (s : State) (c : Command) (rest : List Command) : (s.dequeue c rest).fb = s.fb := rfl
@[simp] theorem State.dequeue_resAddr (s : State) (c : Command) (rest : List Command) : (s.dequeue c rest).resAddr = s.resAddr := rfl
@[simp] theorem State.dequeue_resCmd (s : State) (c : Command) (rest : List Command) : (s.dequeue c rest).resCmd = s.resCmd := rfl
@[simp] theorem State.dequeue_pendCmd (s : State) (c : Command) (rest : List Command) : (s.dequeue c rest).pendCmd = s.pendCmd := rfl
@[simp] theorem State.dequeue_lastOutcome (s : State) (c : Command) (rest : List Command) : (s.dequeue c rest).lastOutcome = s.lastOutcome := rfl
@[simp] theorem State.dequeue_q (s : State) (c : Command) (rest : List Command) : (s.dequeue c rest).q = rest := rfl
@[simp] theorem State.dequeue_addrSr (s : State) (c : Command) (rest : List Command) : (s.dequeue c rest).addrSr = s.addrSr := rfl
@[simp] theorem State.dequeue_wordSr (s : State) (c : Command) (rest : List Command) : (s.dequeue c rest).wordSr = s.wordSr := rfl
@[simp] theorem State.dequeue_symIdx (s : State) (c : Command) (rest : List Command) : (s.dequeue c rest).symIdx = s.symIdx := rfl
@[simp] theorem State.dequeue_rdPtr (s : State) (c : Command) (rest : List Command) : (s.dequeue c rest).rdPtr = s.rdPtr + 1 := rfl
@[simp] theorem State.dequeue_qmem (s : State) (c : Command) (rest : List Command) : (s.dequeue c rest).qmem = s.qmem := rfl
@[simp] theorem State.dequeue_waitTmr (s : State) (c : Command) (rest : List Command) : (s.dequeue c rest).waitTmr = s.waitTmr := rfl
@[simp] theorem State.dequeue_pushTmr (s : State) (c : Command) (rest : List Command) : (s.dequeue c rest).pushTmr = s.pushTmr := rfl
@[simp] theorem State.dequeue_popTmr (s : State) (c : Command) (rest : List Command) : (s.dequeue c rest).popTmr = s.popTmr := rfl
@[simp] theorem State.dequeue_popBusy (s : State) (c : Command) (rest : List Command) : (s.dequeue c rest).popBusy = false := rfl
@[simp] theorem State.dequeue_capArm (s : State) (c : Command) (rest : List Command) : (s.dequeue c rest).capArm = s.capArm := rfl
@[simp] theorem State.dequeue_outcStrobe (s : State) (c : Command) (rest : List Command) : (s.dequeue c rest).outcStrobe = s.outcStrobe := rfl
@[simp] theorem State.dequeue_popPort (s : State) (c : Command) (rest : List Command) : (s.dequeue c rest).popPort = .hit c := rfl
@[simp] theorem State.dequeue_ports (s : State) (c : Command) (rest : List Command) : (s.dequeue c rest).ports = s.ports := rfl
@[simp] theorem State.dequeue_rom (s : State) (c : Command) (rest : List Command) : (s.dequeue c rest).rom = s.rom := rfl
@[simp] theorem State.dequeue_trace (s : State) (c : Command) (rest : List Command) : (s.dequeue c rest).trace = s.trace ++ [.popped c] := rfl
@[simp] theorem State.dequeue_ret (s : State) (c : Command) (rest : List Command) : (s.dequeue c rest).ret = s.ret := rfl
@[simp] theorem State.dequeue_inputs (s : State) (c : Command) (rest : List Command) : (s.dequeue c rest).inputs = s.inputs := rfl

/-! ### endEmptyPop -/

@[simp] theorem State.endEmptyPop_fsm (s : State) : (s.endEmptyPop).fsm = s.fsm := rfl
@[simp] theorem State.endEmptyPop_cfg (s : State) : (s.endEmptyPop).cfg = s.cfg := rfl
@[simp] theorem State.endEmptyPop_csActive (s : State) : (s.endEmptyPop).csActive = s.csActive := rfl
@[simp] theorem State.endEmptyPop_slot (s : State) : (s.endEmptyPop).slot = s.slot := rfl
@[simp] theorem State.endEmptyPop_fbCount (s : State) : (s.endEmptyPop).fbCount = s.fbCount := rfl
@[simp] theorem State.endEmptyPop_fb (s : State) : (s.endEmptyPop).fb = s.fb := rfl
@[simp] theorem State.endEmptyPop_resAddr (s : State) : (s.endEmptyPop).resAddr = s.resAddr := rfl
@[simp] theorem State.endEmptyPop_resCmd (s : State) : (s.endEmptyPop).resCmd = s.resCmd := rfl
@[simp] theorem State.endEmptyPop_pendCmd (s : State) : (s.endEmptyPop).pendCmd = s.pendCmd := rfl
@[simp] theorem State.endEmptyPop_lastOutcome (s : State) : (s.endEmptyPop).lastOutcome = s.lastOutcome := rfl
@[simp] theorem State.endEmptyPop_q (s : State) : (s.endEmptyPop).q = s.q := rfl
@[simp] theorem State.endEmptyPop_addrSr (s : State) : (s.endEmptyPop).addrSr = s.addrSr := rfl
@[simp] theorem State.endEmptyPop_wordSr (s : State) : (s.endEmptyPop).wordSr = s.wordSr := rfl
@[simp] theorem State.endEmptyPop_symIdx (s : State) : (s.endEmptyPop).symIdx = s.symIdx := rfl
@[simp] theorem State.endEmptyPop_rdPtr (s : State) : (s.endEmptyPop).rdPtr = s.rdPtr := rfl
@[simp] theorem State.endEmptyPop_qmem (s : State) : (s.endEmptyPop).qmem = s.qmem := rfl
@[simp] theorem State.endEmptyPop_waitTmr (s : State) : (s.endEmptyPop).waitTmr = s.waitTmr := rfl
@[simp] theorem State.endEmptyPop_pushTmr (s : State) : (s.endEmptyPop).pushTmr = s.pushTmr := rfl
@[simp] theorem State.endEmptyPop_popTmr (s : State) : (s.endEmptyPop).popTmr = s.popTmr := rfl
@[simp] theorem State.endEmptyPop_popBusy (s : State) : (s.endEmptyPop).popBusy = false := rfl
@[simp] theorem State.endEmptyPop_capArm (s : State) : (s.endEmptyPop).capArm = s.capArm := rfl
@[simp] theorem State.endEmptyPop_outcStrobe (s : State) : (s.endEmptyPop).outcStrobe = s.outcStrobe := rfl
@[simp] theorem State.endEmptyPop_popPort (s : State) : (s.endEmptyPop).popPort = .empty := rfl
@[simp] theorem State.endEmptyPop_ports (s : State) : (s.endEmptyPop).ports = s.ports := rfl
@[simp] theorem State.endEmptyPop_rom (s : State) : (s.endEmptyPop).rom = s.rom := rfl
@[simp] theorem State.endEmptyPop_trace (s : State) : (s.endEmptyPop).trace = s.trace ++ [.popEmpty] := rfl
@[simp] theorem State.endEmptyPop_ret (s : State) : (s.endEmptyPop).ret = s.ret := rfl
@[simp] theorem State.endEmptyPop_inputs (s : State) : (s.endEmptyPop).inputs = s.inputs := rfl

/-! ### beginPop -/

@[simp] theorem State.beginPop_fsm (s : State) (t : Ticks) : (s.beginPop t).fsm = s.fsm := rfl
@[simp] theorem State.beginPop_cfg (s : State) (t : Ticks) : (s.beginPop t).cfg = s.cfg := rfl
@[simp] theorem State.beginPop_csActive (s : State) (t : Ticks) : (s.beginPop t).csActive = s.csActive := rfl
@[simp] theorem State.beginPop_slot (s : State) (t : Ticks) : (s.beginPop t).slot = s.slot := rfl
@[simp] theorem State.beginPop_fbCount (s : State) (t : Ticks) : (s.beginPop t).fbCount = s.fbCount := rfl
@[simp] theorem State.beginPop_fb (s : State) (t : Ticks) : (s.beginPop t).fb = s.fb := rfl
@[simp] theorem State.beginPop_resAddr (s : State) (t : Ticks) : (s.beginPop t).resAddr = s.resAddr := rfl
@[simp] theorem State.beginPop_resCmd (s : State) (t : Ticks) : (s.beginPop t).resCmd = s.resCmd := rfl
@[simp] theorem State.beginPop_pendCmd (s : State) (t : Ticks) : (s.beginPop t).pendCmd = s.pendCmd := rfl
@[simp] theorem State.beginPop_lastOutcome (s : State) (t : Ticks) : (s.beginPop t).lastOutcome = s.lastOutcome := rfl
@[simp] theorem State.beginPop_q (s : State) (t : Ticks) : (s.beginPop t).q = s.q := rfl
@[simp] theorem State.beginPop_addrSr (s : State) (t : Ticks) : (s.beginPop t).addrSr = s.addrSr := rfl
@[simp] theorem State.beginPop_wordSr (s : State) (t : Ticks) : (s.beginPop t).wordSr = s.wordSr := rfl
@[simp] theorem State.beginPop_symIdx (s : State) (t : Ticks) : (s.beginPop t).symIdx = s.symIdx := rfl
@[simp] theorem State.beginPop_rdPtr (s : State) (t : Ticks) : (s.beginPop t).rdPtr = s.rdPtr := rfl
@[simp] theorem State.beginPop_qmem (s : State) (t : Ticks) : (s.beginPop t).qmem = s.qmem := rfl
@[simp] theorem State.beginPop_waitTmr (s : State) (t : Ticks) : (s.beginPop t).waitTmr = s.waitTmr := rfl
@[simp] theorem State.beginPop_pushTmr (s : State) (t : Ticks) : (s.beginPop t).pushTmr = s.pushTmr := rfl
@[simp] theorem State.beginPop_popTmr (s : State) (t : Ticks) : (s.beginPop t).popTmr = t := rfl
@[simp] theorem State.beginPop_popBusy (s : State) (t : Ticks) : (s.beginPop t).popBusy = true := rfl
@[simp] theorem State.beginPop_capArm (s : State) (t : Ticks) : (s.beginPop t).capArm = s.capArm := rfl
@[simp] theorem State.beginPop_outcStrobe (s : State) (t : Ticks) : (s.beginPop t).outcStrobe = s.outcStrobe := rfl
@[simp] theorem State.beginPop_popPort (s : State) (t : Ticks) : (s.beginPop t).popPort = s.popPort := rfl
@[simp] theorem State.beginPop_ports (s : State) (t : Ticks) : (s.beginPop t).ports = s.ports := rfl
@[simp] theorem State.beginPop_rom (s : State) (t : Ticks) : (s.beginPop t).rom = s.rom := rfl
@[simp] theorem State.beginPop_trace (s : State) (t : Ticks) : (s.beginPop t).trace = s.trace := rfl
@[simp] theorem State.beginPop_ret (s : State) (t : Ticks) : (s.beginPop t).ret = s.ret := rfl
@[simp] theorem State.beginPop_inputs (s : State) (t : Ticks) : (s.beginPop t).inputs = s.inputs := rfl

/-! ### deliver -/

@[simp] theorem State.deliver_fsm (s : State) (f : List SymWord) : (s.deliver f).fsm = s.fsm := rfl
@[simp] theorem State.deliver_cfg (s : State) (f : List SymWord) : (s.deliver f).cfg = s.cfg := rfl
@[simp] theorem State.deliver_csActive (s : State) (f : List SymWord) : (s.deliver f).csActive = s.csActive := rfl
@[simp] theorem State.deliver_slot (s : State) (f : List SymWord) : (s.deliver f).slot = .full := rfl
@[simp] theorem State.deliver_fbCount (s : State) (f : List SymWord) : (s.deliver f).fbCount = BitVec.ofNat 7 f.length := rfl
@[simp] theorem State.deliver_fb (s : State) (f : List SymWord) : (s.deliver f).fb = writeFrame s.fb f := rfl
@[simp] theorem State.deliver_resAddr (s : State) (f : List SymWord) : (s.deliver f).resAddr = s.resAddr := rfl
@[simp] theorem State.deliver_resCmd (s : State) (f : List SymWord) : (s.deliver f).resCmd = s.resCmd := rfl
@[simp] theorem State.deliver_pendCmd (s : State) (f : List SymWord) : (s.deliver f).pendCmd = s.pendCmd := rfl
@[simp] theorem State.deliver_lastOutcome (s : State) (f : List SymWord) : (s.deliver f).lastOutcome = s.lastOutcome := rfl
@[simp] theorem State.deliver_q (s : State) (f : List SymWord) : (s.deliver f).q = s.q := rfl
@[simp] theorem State.deliver_addrSr (s : State) (f : List SymWord) : (s.deliver f).addrSr = s.addrSr := rfl
@[simp] theorem State.deliver_wordSr (s : State) (f : List SymWord) : (s.deliver f).wordSr = s.wordSr := rfl
@[simp] theorem State.deliver_symIdx (s : State) (f : List SymWord) : (s.deliver f).symIdx = s.symIdx := rfl
@[simp] theorem State.deliver_rdPtr (s : State) (f : List SymWord) : (s.deliver f).rdPtr = s.rdPtr := rfl
@[simp] theorem State.deliver_qmem (s : State) (f : List SymWord) : (s.deliver f).qmem = s.qmem := rfl
@[simp] theorem State.deliver_waitTmr (s : State) (f : List SymWord) : (s.deliver f).waitTmr = s.waitTmr := rfl
@[simp] theorem State.deliver_pushTmr (s : State) (f : List SymWord) : (s.deliver f).pushTmr = s.pushTmr := rfl
@[simp] theorem State.deliver_popTmr (s : State) (f : List SymWord) : (s.deliver f).popTmr = s.popTmr := rfl
@[simp] theorem State.deliver_popBusy (s : State) (f : List SymWord) : (s.deliver f).popBusy = s.popBusy := rfl
@[simp] theorem State.deliver_capArm (s : State) (f : List SymWord) : (s.deliver f).capArm = s.capArm := rfl
@[simp] theorem State.deliver_outcStrobe (s : State) (f : List SymWord) : (s.deliver f).outcStrobe = s.outcStrobe := rfl
@[simp] theorem State.deliver_popPort (s : State) (f : List SymWord) : (s.deliver f).popPort = s.popPort := rfl
@[simp] theorem State.deliver_ports (s : State) (f : List SymWord) : (s.deliver f).ports = s.ports := rfl
@[simp] theorem State.deliver_rom (s : State) (f : List SymWord) : (s.deliver f).rom = s.rom := rfl
@[simp] theorem State.deliver_trace (s : State) (f : List SymWord) : (s.deliver f).trace = s.trace ++ [.deliver f] := rfl
@[simp] theorem State.deliver_ret (s : State) (f : List SymWord) : (s.deliver f).ret = s.ret := rfl
@[simp] theorem State.deliver_inputs (s : State) (f : List SymWord) : (s.deliver f).inputs = s.inputs := rfl

/-! ### atSymbol -/

@[simp] theorem State.atSymbol_fsm (s : State) (i : Nat) : (s.atSymbol i).fsm = s.fsm := rfl
@[simp] theorem State.atSymbol_cfg (s : State) (i : Nat) : (s.atSymbol i).cfg = s.cfg := rfl
@[simp] theorem State.atSymbol_csActive (s : State) (i : Nat) : (s.atSymbol i).csActive = s.csActive := rfl
@[simp] theorem State.atSymbol_slot (s : State) (i : Nat) : (s.atSymbol i).slot = s.slot := rfl
@[simp] theorem State.atSymbol_fbCount (s : State) (i : Nat) : (s.atSymbol i).fbCount = s.fbCount := rfl
@[simp] theorem State.atSymbol_fb (s : State) (i : Nat) : (s.atSymbol i).fb = s.fb := rfl
@[simp] theorem State.atSymbol_resAddr (s : State) (i : Nat) : (s.atSymbol i).resAddr = s.resAddr := rfl
@[simp] theorem State.atSymbol_resCmd (s : State) (i : Nat) : (s.atSymbol i).resCmd = s.resCmd := rfl
@[simp] theorem State.atSymbol_pendCmd (s : State) (i : Nat) : (s.atSymbol i).pendCmd = s.pendCmd := rfl
@[simp] theorem State.atSymbol_lastOutcome (s : State) (i : Nat) : (s.atSymbol i).lastOutcome = s.lastOutcome := rfl
@[simp] theorem State.atSymbol_q (s : State) (i : Nat) : (s.atSymbol i).q = s.q := rfl
@[simp] theorem State.atSymbol_addrSr (s : State) (i : Nat) : (s.atSymbol i).addrSr = s.addrSr := rfl
@[simp] theorem State.atSymbol_wordSr (s : State) (i : Nat) : (s.atSymbol i).wordSr = s.wordSr := rfl
@[simp] theorem State.atSymbol_symIdx (s : State) (i : Nat) : (s.atSymbol i).symIdx = BitVec.ofNat 7 i := rfl
@[simp] theorem State.atSymbol_rdPtr (s : State) (i : Nat) : (s.atSymbol i).rdPtr = s.rdPtr := rfl
@[simp] theorem State.atSymbol_qmem (s : State) (i : Nat) : (s.atSymbol i).qmem = s.qmem := rfl
@[simp] theorem State.atSymbol_waitTmr (s : State) (i : Nat) : (s.atSymbol i).waitTmr = s.waitTmr := rfl
@[simp] theorem State.atSymbol_pushTmr (s : State) (i : Nat) : (s.atSymbol i).pushTmr = s.pushTmr := rfl
@[simp] theorem State.atSymbol_popTmr (s : State) (i : Nat) : (s.atSymbol i).popTmr = s.popTmr := rfl
@[simp] theorem State.atSymbol_popBusy (s : State) (i : Nat) : (s.atSymbol i).popBusy = s.popBusy := rfl
@[simp] theorem State.atSymbol_capArm (s : State) (i : Nat) : (s.atSymbol i).capArm = s.capArm := rfl
@[simp] theorem State.atSymbol_outcStrobe (s : State) (i : Nat) : (s.atSymbol i).outcStrobe = s.outcStrobe := rfl
@[simp] theorem State.atSymbol_popPort (s : State) (i : Nat) : (s.atSymbol i).popPort = s.popPort := rfl
@[simp] theorem State.atSymbol_ports (s : State) (i : Nat) : (s.atSymbol i).ports = s.ports := rfl
@[simp] theorem State.atSymbol_rom (s : State) (i : Nat) : (s.atSymbol i).rom = s.rom := rfl
@[simp] theorem State.atSymbol_trace (s : State) (i : Nat) : (s.atSymbol i).trace = s.trace := rfl
@[simp] theorem State.atSymbol_ret (s : State) (i : Nat) : (s.atSymbol i).ret = s.ret := rfl
@[simp] theorem State.atSymbol_inputs (s : State) (i : Nat) : (s.atSymbol i).inputs = s.inputs := rfl

/-! ### popTick -/

@[simp] theorem State.popTick_fsm (s : State) : (s.popTick).fsm = s.fsm := rfl
@[simp] theorem State.popTick_cfg (s : State) : (s.popTick).cfg = s.cfg := rfl
@[simp] theorem State.popTick_csActive (s : State) : (s.popTick).csActive = s.csActive := rfl
@[simp] theorem State.popTick_slot (s : State) : (s.popTick).slot = s.slot := rfl
@[simp] theorem State.popTick_fbCount (s : State) : (s.popTick).fbCount = s.fbCount := rfl
@[simp] theorem State.popTick_fb (s : State) : (s.popTick).fb = s.fb := rfl
@[simp] theorem State.popTick_resAddr (s : State) : (s.popTick).resAddr = s.resAddr := rfl
@[simp] theorem State.popTick_resCmd (s : State) : (s.popTick).resCmd = s.resCmd := rfl
@[simp] theorem State.popTick_pendCmd (s : State) : (s.popTick).pendCmd = s.pendCmd := rfl
@[simp] theorem State.popTick_lastOutcome (s : State) : (s.popTick).lastOutcome = s.lastOutcome := rfl
@[simp] theorem State.popTick_q (s : State) : (s.popTick).q = s.q := rfl
@[simp] theorem State.popTick_addrSr (s : State) : (s.popTick).addrSr = s.addrSr := rfl
@[simp] theorem State.popTick_wordSr (s : State) : (s.popTick).wordSr = s.wordSr := rfl
@[simp] theorem State.popTick_symIdx (s : State) : (s.popTick).symIdx = s.symIdx := rfl
@[simp] theorem State.popTick_rdPtr (s : State) : (s.popTick).rdPtr = s.rdPtr := rfl
@[simp] theorem State.popTick_qmem (s : State) : (s.popTick).qmem = s.qmem := rfl
@[simp] theorem State.popTick_waitTmr (s : State) : (s.popTick).waitTmr = s.waitTmr := rfl
@[simp] theorem State.popTick_pushTmr (s : State) : (s.popTick).pushTmr = s.pushTmr := rfl
@[simp] theorem State.popTick_popTmr (s : State) : (s.popTick).popTmr = s.popTmr - 1 := rfl
@[simp] theorem State.popTick_popBusy (s : State) : (s.popTick).popBusy = s.popBusy := rfl
@[simp] theorem State.popTick_capArm (s : State) : (s.popTick).capArm = s.capArm := rfl
@[simp] theorem State.popTick_outcStrobe (s : State) : (s.popTick).outcStrobe = s.outcStrobe := rfl
@[simp] theorem State.popTick_popPort (s : State) : (s.popTick).popPort = s.popPort := rfl
@[simp] theorem State.popTick_ports (s : State) : (s.popTick).ports = s.ports := rfl
@[simp] theorem State.popTick_rom (s : State) : (s.popTick).rom = s.rom := rfl
@[simp] theorem State.popTick_trace (s : State) : (s.popTick).trace = s.trace := rfl
@[simp] theorem State.popTick_ret (s : State) : (s.popTick).ret = s.ret := rfl
@[simp] theorem State.popTick_inputs (s : State) : (s.popTick).inputs = s.inputs := rfl

/-! ### lookupHits -/

@[simp] theorem State.lookupHits_fsm (s : State) (k : Command) : (s.lookupHits k).fsm = .push := rfl
@[simp] theorem State.lookupHits_cfg (s : State) (k : Command) : (s.lookupHits k).cfg = s.cfg := rfl
@[simp] theorem State.lookupHits_csActive (s : State) (k : Command) : (s.lookupHits k).csActive = s.csActive := rfl
@[simp] theorem State.lookupHits_slot (s : State) (k : Command) : (s.lookupHits k).slot = s.slot := rfl
@[simp] theorem State.lookupHits_fbCount (s : State) (k : Command) : (s.lookupHits k).fbCount = s.fbCount := rfl
@[simp] theorem State.lookupHits_fb (s : State) (k : Command) : (s.lookupHits k).fb = s.fb := rfl
@[simp] theorem State.lookupHits_resAddr (s : State) (k : Command) : (s.lookupHits k).resAddr = s.resAddr := rfl
@[simp] theorem State.lookupHits_resCmd (s : State) (k : Command) : (s.lookupHits k).resCmd = s.resCmd := rfl
@[simp] theorem State.lookupHits_pendCmd (s : State) (k : Command) : (s.lookupHits k).pendCmd = k := rfl
@[simp] theorem State.lookupHits_lastOutcome (s : State) (k : Command) : (s.lookupHits k).lastOutcome = s.lastOutcome := rfl
@[simp] theorem State.lookupHits_q (s : State) (k : Command) : (s.lookupHits k).q = s.q := rfl
@[simp] theorem State.lookupHits_addrSr (s : State) (k : Command) : (s.lookupHits k).addrSr = s.addrSr := rfl
@[simp] theorem State.lookupHits_wordSr (s : State) (k : Command) : (s.lookupHits k).wordSr = s.wordSr := rfl
@[simp] theorem State.lookupHits_symIdx (s : State) (k : Command) : (s.lookupHits k).symIdx = s.symIdx := rfl
@[simp] theorem State.lookupHits_rdPtr (s : State) (k : Command) : (s.lookupHits k).rdPtr = s.rdPtr := rfl
@[simp] theorem State.lookupHits_qmem (s : State) (k : Command) : (s.lookupHits k).qmem = s.qmem := rfl
@[simp] theorem State.lookupHits_waitTmr (s : State) (k : Command) : (s.lookupHits k).waitTmr = s.waitTmr := rfl
@[simp] theorem State.lookupHits_pushTmr (s : State) (k : Command) : (s.lookupHits k).pushTmr = s.cfg.pushTimeout := rfl
@[simp] theorem State.lookupHits_popTmr (s : State) (k : Command) : (s.lookupHits k).popTmr = s.popTmr := rfl
@[simp] theorem State.lookupHits_popBusy (s : State) (k : Command) : (s.lookupHits k).popBusy = s.popBusy := rfl
@[simp] theorem State.lookupHits_capArm (s : State) (k : Command) : (s.lookupHits k).capArm = s.capArm := rfl
@[simp] theorem State.lookupHits_outcStrobe (s : State) (k : Command) : (s.lookupHits k).outcStrobe = s.outcStrobe := rfl
@[simp] theorem State.lookupHits_popPort (s : State) (k : Command) : (s.lookupHits k).popPort = s.popPort := rfl
@[simp] theorem State.lookupHits_ports (s : State) (k : Command) : (s.lookupHits k).ports = s.ports := rfl
@[simp] theorem State.lookupHits_rom (s : State) (k : Command) : (s.lookupHits k).rom = s.rom := rfl
@[simp] theorem State.lookupHits_trace (s : State) (k : Command) : (s.lookupHits k).trace = s.trace := rfl
@[simp] theorem State.lookupHits_ret (s : State) (k : Command) : (s.lookupHits k).ret = s.ret := rfl
@[simp] theorem State.lookupHits_inputs (s : State) (k : Command) : (s.lookupHits k).inputs = s.inputs := rfl

end Sys2Proof.Machine
end

