-- ==== Sys2Proof/Laws/Ops.lean ====
section
/-! SUPPORT. One lemma per shared operation: what it answers, what it keeps, what the pure functions compute. -/

namespace Sys2Proof.Machine

/-! ### require -/

/-- A step that answers a next state was enabled. -/
theorem require_next_iff {p : Bool} {r : Refusal} {o : Res} {t : State} :
    require p r o = .next t ↔ p = true ∧ o = .next t := by
  cases p <;> simp [require]

@[simp] theorem require_true (r : Refusal) (o : Res) : require true r o = o := rfl

@[simp] theorem require_false (r : Refusal) (o : Res) : require false r o = .refused r := rfl

/-! ### Timing classifier -/

theorem inWindow_iff (d : Duration) (n : Nat) :
    inWindow d n = true ↔ n - 150 ≤ d.toNat ∧ d.toNat ≤ n + 150 := by
  simp [inWindow, Config.tol]

theorem matchesZero_iff (x : SymWord) : matchesZero x = true ↔ IsZero x := by
  simp [matchesZero, matchSymbol, inWindow_iff, Config.bitMark, Config.zeroSpace, and_assoc]

theorem matchesOne_iff (x : SymWord) : matchesOne x = true ↔ IsOne x := by
  simp [matchesOne, matchSymbol, inWindow_iff, Config.bitMark, Config.oneSpace, and_assoc]

theorem matchesLead_iff (x : SymWord) (v : Variant) : matchesLead x v = true ↔ IsLead v x := by
  cases v <;> simp [matchesLead, matchSymbol, inWindow_iff, Config.leadMark, Config.leadSpace, IsLead, InBox, and_assoc]

theorem matchesRpt_iff (x : SymWord) (v : Variant) : matchesRpt x v = true ↔ IsRpt v x := by
  cases v <;> simp [matchesRpt, matchSymbol, inWindow_iff, Config.rptMark, Config.rptSpace, IsRpt, InBox, and_assoc]

/-- No Symbol is both ZERO and ONE (30_encoding.md R85). -/
theorem not_isZero_of_isOne {x : SymWord} (h : IsOne x) : ¬ IsZero x := by
  intro hz
  have h1 := h.2.2.1
  have h2 := hz.2.2.2
  omega

theorem classifySymbol_one {x : SymWord} (h : IsOne x) : classifySymbol x = some true := by
  simp [classifySymbol, (matchesOne_iff x).2 h]

theorem classifySymbol_zero {x : SymWord} (h : IsZero x) : classifySymbol x = some false := by
  have h1 : matchesOne x = false := by
    by_contra hc
    exact not_isZero_of_isOne ((matchesOne_iff x).1 (by simpa using hc)) h
  simp [classifySymbol, h1, (matchesZero_iff x).2 h]

theorem classifySymbol_none_iff (x : SymWord) : classifySymbol x = none ↔ ¬ IsOne x ∧ ¬ IsZero x := by
  rw [← matchesOne_iff, ← matchesZero_iff]
  unfold classifySymbol
  cases matchesOne x <;> cases matchesZero x <;> simp

theorem classifySymbol_true_iff (x : SymWord) : classifySymbol x = some true ↔ IsOne x := by
  rw [← matchesOne_iff]
  unfold classifySymbol
  cases matchesOne x <;> cases matchesZero x <;> simp

theorem classifySymbol_false_iff (x : SymWord) : classifySymbol x = some false ↔ IsZero x := by
  constructor
  · intro h
    rw [← matchesZero_iff]
    revert h
    unfold classifySymbol
    cases matchesOne x <;> cases matchesZero x <;> simp
  · exact classifySymbol_zero

/-! ### Assembly -/

/-- A field whose first `n` symbols classify is assembled bit by bit, first symbol lowest. -/
theorem scanField_of_bits (fb : FrameBuffer) (base : Nat) (x : BitVec 16) (n : Nat) (hn : n ≤ 16)
    (h : ∀ i < n, classifySymbol (fbRead fb (base + i)) = some (x.getLsbD i)) :
    (scanField fb base n).ok = true ∧ (scanField fb base n).seen = n ∧
      ∀ j, (scanField fb base n).bits.getLsbD j = (decide (j < n) && x.getLsbD j) := by
  induction n with
  | zero => simp [scanField]
  | succ n ih =>
    obtain ⟨hok, hseen, hbits⟩ := ih (by omega) fun i hi => h i (by omega)
    have hc := h n (by omega)
    simp only [scanField, hok, if_true]
    rw [hc]
    cases hx : x.getLsbD n
    · refine ⟨rfl, rfl, fun j => ?_⟩
      simp only [hbits]
      by_cases hj : j = n
      · subst hj; simp [hx]
      · have : decide (j < n) = decide (j < n + 1) := by simp; omega
        rw [this]
    · refine ⟨rfl, rfl, fun j => ?_⟩
      simp only [BitVec.getLsbD_or, hbits, BitVec.getLsbD_shiftLeft]
      by_cases hj : j = n
      · subst hj
        have : j < 16 := by omega
        simp [hx, this]
      · by_cases hlt : j < n
        · have h2 : j < n + 1 := by omega
          simp only [hlt, h2, decide_true, Bool.true_and]
          simp
        · have h2 : ¬ j < n + 1 := by omega
          have h3 : j - n ≠ 0 := by omega
          simp only [hlt, h2, decide_false, Bool.false_and, Bool.false_or]
          simp [BitVec.getLsbD_one, h3]

/-- A scan that has failed stays failed and examines nothing more. -/
theorem scanField_of_bad (fb : FrameBuffer) (base n : Nat)
    (h : ∃ i < n, classifySymbol (fbRead fb (base + i)) = none) : (scanField fb base n).ok = false := by
  induction n with
  | zero => simp at h
  | succ n ih =>
    simp only [scanField]
    by_cases hok : (scanField fb base n).ok = true
    · obtain ⟨i, hi, hc⟩ := h
      have : i = n := by
        by_contra hne
        have := ih ⟨i, by omega, hc⟩
        simp [hok] at this
      subst this
      simp [hok, hc]
    · simp [hok]

/-- Sixteen symbols that carry `x` are assembled to `x`. -/
theorem scanField_of_carries {fb : FrameBuffer} {base : Nat} {x : BitVec 16} (h : CarriesField fb base x) :
    scanField fb base 16 = { bits := x, seen := 16, ok := true } := by
  have hc : ∀ i < 16, classifySymbol (fbRead fb (base + i)) = some (x.getLsbD i) := by
    intro i hi
    rcases h i hi with ⟨hb, h1⟩ | ⟨hb, h0⟩
    · rw [hb, classifySymbol_one h1]
    · rw [hb, classifySymbol_zero h0]
  obtain ⟨hok, hseen, hbits⟩ := scanField_of_bits fb base x 16 (le_refl _) hc
  have hb : (scanField fb base 16).bits = x := by
    apply BitVec.eq_of_getLsbD_eq
    intro i hi
    rw [hbits]; simp [hi]
  cases hs : scanField fb base 16
  simp_all

theorem assembleField_of_carries {fb : FrameBuffer} {base : Nat} {x : BitVec 16} (h : CarriesField fb base x) :
    assembleField fb base = some x := by
  simp [assembleField, Config.fieldBits, scanField_of_carries h]

theorem assembleField_of_bad {fb : FrameBuffer} {base : Nat} (h : HasBadSymbol fb base) :
    assembleField fb base = none := by
  have : (scanField fb base 16).ok = false := by
    apply scanField_of_bad
    obtain ⟨i, hi, h1, h0⟩ := h
    exact ⟨i, hi, (classifySymbol_none_iff _).2 ⟨h1, h0⟩⟩
  simp [assembleField, Config.fieldBits, this]

/-- Sixteen symbols either carry a field or hold a bad symbol. -/
theorem carries_or_bad (fb : FrameBuffer) (base : Nat) : (∃ x, CarriesField fb base x) ∨ HasBadSymbol fb base := by
  by_cases hb : HasBadSymbol fb base
  · exact .inr hb
  · left
    refine ⟨BitVec.ofFnLE fun i : Fin 16 => decide (IsOne (fbRead fb (base + i))), fun i hi => ?_⟩
    have hc : IsOne (fbRead fb (base + i)) ∨ IsZero (fbRead fb (base + i)) := by
      by_contra hne
      rw [not_or] at hne
      exact hb ⟨i, hi, hne.1, hne.2⟩
    rcases hc with h1 | h0
    · left
      exact ⟨by simp [hi]; exact h1, h1⟩
    · right
      have hn : ¬ IsOne (fbRead fb (base + i)) := fun h1 => not_isZero_of_isOne h1 h0
      exact ⟨by simp only [BitVec.getLsbD_ofFnLE, hi, dif_pos]; simpa using hn, h0⟩

/-- A field that is assembled was carried. -/
theorem carries_of_assembleField {fb : FrameBuffer} {base : Nat} {x : BitVec 16} (h : assembleField fb base = some x) :
    CarriesField fb base x := by
  rcases carries_or_bad fb base with ⟨y, hy⟩ | hb
  · rw [assembleField_of_carries hy] at h
    exact Option.some.inj h ▸ hy
  · rw [assembleField_of_bad hb] at h
    exact absurd h (by simp)

theorem checksumOk_iff (w : BitVec 16) :
    checksumOk w = true ↔ w.extractLsb' 8 8 = ~~~ w.extractLsb' 0 8 := by
  simp [checksumOk, highByte, lowByte]

/-! ### The frame buffer -/

theorem fbRead_writeFrame (fb : FrameBuffer) (f : List SymWord) (i : Nat) (hi : i < 64) :
    fbRead (writeFrame fb f) i = if h : i < f.length then f[i] else fbRead fb i := by
  unfold fbRead writeFrame
  by_cases h : i < f.length <;> simp [hi, h]

/-! ### The queue and the spaces -/

theorem commandOfCode_commandCode (c : Command) : commandOfCode (commandCode c) = some c := by
  cases c <;> rfl

theorem commandOfCode_eq_some {x : BitVec 3} {c : Command} (h : commandOfCode x = some c) : x = commandCode c := by
  revert h; revert c; revert x; decide +revert

theorem commandOfCode_eq_none (x : BitVec 3) (h : 6 ≤ x.toNat) : commandOfCode x = none := by
  revert x; decide

theorem outcomeOfCode_outcomeCode (o : OutcomeCode) : outcomeOfCode (outcomeCode o) = some o := by
  cases o <;> rfl

theorem outcomeOfCode_eq_none (x : BitVec 4) (h : 10 ≤ x.toNat) : outcomeOfCode x = none := by
  revert x; decide

theorem memory_wf_iff (s : State) : Memory.wf s = true ↔ s.q.length ≤ 16 ∧ s.fbCount.toNat ≤ 64 := by
  simp [Memory.wf, Config.fifoDepth, Config.frameCap]

/-- A push with room keeps the spaces well-formed. -/
theorem memory_wf_enqueue (s : State) (c : Command) (h : Memory.wf s = true) (hq : s.q.length < 16) :
    Memory.wf (s.enqueue c) = true := by
  rw [memory_wf_iff] at *
  simp
  omega

/-- A pop keeps the spaces well-formed. -/
theorem memory_wf_dequeue (s : State) (c : Command) (rest : List Command) (hs : s.q = c :: rest)
    (h : Memory.wf s = true) : Memory.wf (s.dequeue c rest) = true := by
  rw [memory_wf_iff] at *
  simp [hs] at *
  omega

/-- A delivery of at most FRAME_CAP symbols keeps the spaces well-formed. -/
theorem memory_wf_deliver (s : State) (f : List SymWord) (hf : f.length ≤ 64) (h : Memory.wf s = true) :
    Memory.wf (s.deliver f) = true := by
  rw [memory_wf_iff] at *
  simp
  omega

theorem pushInProgress_iff (c : Command) (s : State) :
    s.pushInProgress c = true ↔ s.fsm = .push ∧ c = s.pendCmd := by
  simp [State.pushInProgress]

/-- What `qmemAgrees` reads: Q, QMEM and RD_PTR. -/
theorem qmemAgrees_congr {s t : State} (hq : t.q = s.q) (hm : t.qmem = s.qmem) (hr : t.rdPtr = s.rdPtr)
    (h : s.qmemAgrees) : t.qmemAgrees := by
  unfold State.qmemAgrees State.qmemWord at *
  rwa [hq, hm, hr]

/-- A push with room writes the word behind the occupied ones (43_dispatch_fifo.md R183). -/
theorem qmemAgrees_enqueue {s : State} (c : Command) (hq : s.q.length < 16) (h : s.qmemAgrees) :
    (s.enqueue c).qmemAgrees := by
  have hw : s.wrPtr.toNat % 16 = (s.rdPtr.toNat + s.q.length) % 16 := by
    simp only [State.wrPtr, BitVec.toNat_add, BitVec.toNat_ofNat]; omega
  intro j hj
  simp only [State.enqueue_q, List.length_append, List.length_singleton] at hj
  simp only [State.qmemWord, State.enqueue_q, State.enqueue_qmem, State.enqueue_rdPtr, Config.fifoDepth, hw]
  rw [Vector.getElem?_setIfInBounds]
  by_cases hl : j = s.q.length
  · subst hl
    simp [Nat.mod_lt]
  · have hlt : j < s.q.length := by omega
    have hne : ¬ (s.rdPtr.toNat + s.q.length) % 16 = (s.rdPtr.toNat + j) % 16 := by omega
    rw [if_neg hne, List.getElem?_append_left hlt]
    exact h j hlt

/-- A pop only moves RD_PTR past the head (R183). -/
theorem qmemAgrees_dequeue {s : State} {c : Command} {rest : List Command} (hs : s.q = c :: rest)
    (h : s.qmemAgrees) : (s.dequeue c rest).qmemAgrees := by
  intro j hj
  simp only [State.dequeue_q] at hj
  have hk := h (j + 1) (by simp [hs]; omega)
  have hr : ((s.rdPtr + 1).toNat + j) % 16 = (s.rdPtr.toNat + (j + 1)) % 16 := by
    have h1 : (1 : BitVec 5).toNat = 1 := rfl
    simp only [BitVec.toNat_add, h1]; omega
  simp only [State.qmemWord, State.dequeue_q, State.dequeue_qmem, State.dequeue_rdPtr, Config.fifoDepth, hr]
  simpa [hs, State.qmemWord, Config.fifoDepth] using hk

theorem memory_wf_reset : Memory.wf State.reset = true := by decide

/-! ### The private registers of the assembly -/

/-- Latching the private registers changes nothing else. -/
theorem latchDecode_frame (n : Nat) (s : State) :
    ∃ a w i, s.latchDecode n = { s with addrSr := a, wordSr := w, symIdx := i } := by
  unfold State.latchDecode State.latchNormal State.latchField State.atSymbol
  repeat' split
  all_goals exact ⟨_, _, _, rfl⟩

theorem latchNormal_frame (s : State) :
    ∃ a w i, s.latchNormal = { s with addrSr := a, wordSr := w, symIdx := i } := by
  have h := latchDecode_frame 34 s
  simpa [State.latchDecode, classifyCount, Config.nNormal] using h

theorem latchField_frame (base : Nat) (s : State) :
    ∃ a w i, s.latchField base = { s with addrSr := a, wordSr := w, symIdx := i } := by
  unfold State.latchField
  dsimp only
  split
  · exact ⟨_, _, _, rfl⟩
  · split <;> exact ⟨_, _, _, rfl⟩

/-! ### The resolver -/

theorem resolveCommand_of_key {cs : Codeset} {c : BitVec 8} {k : Command} (hk : keyOf (entryOf cs k) = c)
    (hd : ∀ j, j ≠ k → keyOf (entryOf cs j) ≠ c) : resolveCommand cs c = some k := by
  unfold resolveCommand
  have hf : (fun j => keyOf (entryOf cs j) == c) = fun j => decide (j = k) := by
    funext j
    by_cases hj : j = k
    · simp [hj, hk]
    · simp [hj, hd j hj]
  rw [hf]
  cases k <;> rfl

theorem resolveCommand_none {cs : Codeset} {c : BitVec 8} (h : ∀ k, keyOf (entryOf cs k) ≠ c) :
    resolveCommand cs c = none := by
  unfold resolveCommand
  rw [List.find?_eq_none]
  intro k _
  simp [h k]

theorem keysDistinct_iff (cs : Codeset) :
    keysDistinct cs = true ↔ ∀ j k, j ≠ k → keyOf (entryOf cs j) ≠ keyOf (entryOf cs k) := by
  unfold keysDistinct
  rw [decide_eq_true_iff]
  have hall : ∀ k : Command, k ∈ allCommands := by intro k; cases k <;> simp [allCommands]
  have hnd : allCommands.Nodup := by decide
  constructor
  · intro h j k hjk he
    exact hjk (List.inj_on_of_nodup_map h (hall j) (hall k) he)
  · intro h
    refine (List.nodup_map_iff_inj_on hnd).2 fun j _ k _ he => ?_
    by_contra hne
    exact h j k hne he

theorem codesetIsOk_iff (rom : List Config.CodesetRow) (idx : Nat) :
    codesetIsOk rom idx = true ↔ ∃ row, rom[idx]? = some row ∧ LegalRow row := by
  unfold codesetIsOk
  cases h : rom[idx]? with
  | none => simp
  | some row => simp [keysDistinct_iff, LegalRow, Config.necTag]

end Sys2Proof.Machine
end

