-- ==== Sys2Proof/Laws/Exec.lean ====
section
/-! SUPPORT. Inversion: what holds when an operation, a turn or a step answers a next state. Later proofs cite these and do
not unfold the meanings again. -/

namespace Sys2Proof.Machine

/-! ### The operations that write state -/

theorem execPushOk_next {x : BitVec 3} {s t : State} (h : execPushOk x s = .next t) :
    s.fsm = .push ∧ x = commandCode s.pendCmd ∧ s.q.length < 16 ∧ t = (s.enqueue s.pendCmd).setRet (.bool true) := by
  unfold execPushOk at h
  cases hc : commandOfCode x with
  | none => simp [hc] at h
  | some c =>
    simp only [hc, require_next_iff, pushInProgress_iff, decide_eq_true_eq, Host.Outcome.next.injEq] at h
    obtain ⟨⟨hf, rfl⟩, hq, rfl⟩ := h
    exact ⟨hf, commandOfCode_eq_some hc, hq, rfl⟩

theorem execPushTimeout_next {x : BitVec 3} {s t : State} (h : execPushTimeout x s = .next t) :
    s.fsm = .push ∧ x = commandCode s.pendCmd ∧ s.q.length = 16 ∧ t = s.failPush.setRet (.bool false) := by
  unfold execPushTimeout at h
  cases hc : commandOfCode x with
  | none => simp [hc] at h
  | some c =>
    simp only [hc, require_next_iff, pushInProgress_iff, State.qFull, decide_eq_true_eq, Host.Outcome.next.injEq] at h
    obtain ⟨⟨hf, rfl⟩, hq, rfl⟩ := h
    exact ⟨hf, commandOfCode_eq_some hc, hq, rfl⟩

theorem execPopOk_next {s t : State} (h : execPopOk s = .next t) :
    ∃ c rest, s.q = c :: rest ∧ t = (s.dequeue c rest).setRet (.command (some c)) := by
  unfold execPopOk at h
  cases hq : s.q with
  | nil => simp [hq] at h
  | cons c rest =>
    simp only [hq, Host.Outcome.next.injEq] at h
    exact ⟨c, rest, rfl, h.symm⟩

theorem execPopEmpty_next {s t : State} (h : execPopEmpty s = .next t) :
    s.q = [] ∧ t = s.endEmptyPop.setRet (.command none) := by
  simp only [execPopEmpty, require_next_iff, State.qEmpty, decide_eq_true_eq, Host.Outcome.next.injEq] at h
  exact ⟨List.length_eq_zero_iff.1 h.1, h.2.symm⟩

theorem execInit_next {s t : State} (h : execInit s = .next t) :
    s.fsm = .init ∧
      ((codesetIsOk s.rom s.ports.codesetIdx = true ∧ s.slot = .idle ∧ t = s.initSucceeds) ∨
        (codesetIsOk s.rom s.ports.codesetIdx = false ∧ t = s.initFails)) := by
  simp only [execInit, require_next_iff, decide_eq_true_eq] at h
  obtain ⟨hf, h⟩ := h
  refine ⟨hf, ?_⟩
  cases hc : codesetIsOk s.rom s.ports.codesetIdx
  · simp only [hc, Bool.false_eq_true, if_false, Host.Outcome.next.injEq] at h
    exact .inr ⟨rfl, h.symm⟩
  · simp only [hc, if_true, require_next_iff, decide_eq_true_eq, Host.Outcome.next.injEq] at h
    exact .inl ⟨rfl, h.1, h.2.symm⟩

theorem execArm_next {s t : State} (h : execArm s = .next t) :
    s.fsm = .init ∧ codesetIsOk s.rom s.ports.codesetIdx = true ∧ s.slot = .idle ∧ t = s.armCapture := by
  simp only [execArm, require_next_iff, decide_eq_true_eq, Host.Outcome.next.injEq] at h
  exact ⟨h.1, h.2.1, h.2.2.1, h.2.2.2.symm⟩

theorem execCaptureDeliver_next {f : List SymWord} {s t : State} (h : execCaptureDeliver f s = .next t) :
    f.length ≤ 64 ∧ s.slot = .armed ∧ t = s.deliver f := by
  simp only [execCaptureDeliver, require_next_iff, decide_eq_true_eq, Host.Outcome.next.injEq] at h
  exact ⟨h.1, h.2.1, h.2.2.symm⟩

theorem execTakeFrame_next {s t : State} (h : execTakeFrame s = .next t) :
    s.fsm = .wait ∧ s.slot = .full ∧ t = { s with fsm := .decode } := by
  simp only [execTakeFrame, require_next_iff, decide_eq_true_eq, Host.Outcome.next.injEq] at h
  exact ⟨h.1, h.2.1, h.2.2.symm⟩

theorem execWaitExpire_next {s t : State} (h : execWaitExpire s = .next t) :
    s.fsm = .wait ∧ s.slot = .armed ∧ t = State.raise .captureTimeout { s with waitTmr := s.cfg.captureWait } := by
  simp only [execWaitExpire, require_next_iff, decide_eq_true_eq, Host.Outcome.next.injEq] at h
  exact ⟨h.1, h.2.1, h.2.2.symm⟩

/-- RUN_DECODE: a Normal result writes the result registers, any other raises one of four outcomes. -/
theorem execRunDecode_next {s t : State} (h : execRunDecode s = .next t) :
    s.fsm = .decode ∧ ∃ u, (∃ a w i, u = { s with addrSr := a, wordSr := w, symIdx := i }) ∧
      ((∃ a c, decodeAnyFrame s.fbCount.toNat s.fb s.cfg.variant = .normal a c ∧
          t = { u with resAddr := a, resCmd := c, fsm := .resolve }) ∨
        ∃ o, (o = .repeatIgnored ∨ o = .errUnsupportedLength ∨ o = .errBitMismatch ∨ o = .errChecksumFailed) ∧
          t = u.raise o) := by
  simp only [execRunDecode, require_next_iff, decide_eq_true_eq, Host.Outcome.next.injEq] at h
  obtain ⟨hf, rfl⟩ := h
  refine ⟨hf, s.latchDecode s.fbCount.toNat, latchDecode_frame _ _, ?_⟩
  cases hr : decodeAnyFrame s.fbCount.toNat s.fb s.cfg.variant with
  | normal a c => exact .inl ⟨a, c, rfl, rfl⟩
  | repeated => exact .inr ⟨_, .inl rfl, rfl⟩
  | unsupportedLength => exact .inr ⟨_, .inr (.inl rfl), rfl⟩
  | bitMismatch => exact .inr ⟨_, .inr (.inr (.inl rfl)), rfl⟩
  | checksumFailed => exact .inr ⟨_, .inr (.inr (.inr rfl)), rfl⟩

theorem execRunResolve_next {s t : State} (h : execRunResolve s = .next t) :
    s.fsm = .resolve ∧
      ((∃ k, resolveCommand s.csActive s.resCmd = some k ∧ t = s.lookupHits k) ∨ t = s.raise .resolveMiss) := by
  simp only [execRunResolve, require_next_iff, decide_eq_true_eq] at h
  obtain ⟨hf, h⟩ := h
  refine ⟨hf, ?_⟩
  cases hr : resolveCommand s.csActive s.resCmd with
  | none => simp only [hr, Host.Outcome.next.injEq] at h; exact .inr h.symm
  | some k => simp only [hr, Host.Outcome.next.injEq] at h; exact .inl ⟨k, rfl, h.symm⟩

theorem execRunPush_next {s t : State} (h : execRunPush s = .next t) :
    s.fsm = .push ∧
      ((s.q.length < 16 ∧ t = (s.enqueue s.pendCmd).raise .dispatched) ∨
        (s.q.length = 16 ∧ t = s.failPush.raise .dispatchTimeout)) := by
  simp only [execRunPush, require_next_iff, decide_eq_true_eq] at h
  obtain ⟨hf, h⟩ := h
  refine ⟨hf, ?_⟩
  by_cases hq : s.q.length < 16
  · simp only [Config.fifoDepth, hq, if_true, Host.Outcome.next.injEq] at h
    exact .inl ⟨hq, h.symm⟩
  · simp only [Config.fifoDepth, hq, if_false, require_next_iff, State.qFull, decide_eq_true_eq,
      Host.Outcome.next.injEq] at h
    exact .inr ⟨h.1, h.2.symm⟩

theorem execRearm_next {s t : State} (h : execRearm s = .next t) : s.fsm = .rearm ∧ t = s.returnFromOutcome := by
  simp only [execRearm, require_next_iff, decide_eq_true_eq, Host.Outcome.next.injEq] at h
  exact ⟨h.1, h.2.symm⟩

theorem execHalted_next {s t : State} (h : execHalted s = .next t) : s.fsm = .halt ∧ t = s := by
  simp only [execHalted, require_next_iff, decide_eq_true_eq, Host.Outcome.next.injEq] at h
  exact ⟨h.1, h.2.symm⟩

/-! ### All operations -/

/-- The operations of families 1 to 3 and the word formats: they return a value and, in a build, leave the private
registers of the assembly. -/
def isPure : Instr → Bool
  | .inWin _ _ => true
  | .matchSym _ _ _ => true
  | .matchLead _ => true
  | .matchRpt _ => true
  | .matchZero _ => true
  | .matchOne _ => true
  | .classifyBit _ => true
  | .classifyLength _ => true
  | .decodeFrame _ => true
  | .decodeNormal => true
  | .assemble16 _ => true
  | .checksum _ => true
  | .decodeRepeat => true
  | .key _ => true
  | .resolve _ => true
  | .codesetOk _ => true
  | .symbolWord _ => true
  | .codesetEntry _ => true
  | .rawCommandWord _ => true
  | .commandCode _ => true
  | .outcomeCode _ => true
  | _ => false

/-- A pure operation changes nothing but the returned value and the private registers. -/
theorem exec_pure_next {i : Instr} {s t : State} (hi : isPure i = true) (h : exec i s = .next t) :
    ∃ r a w x, t = { s with ret := r, addrSr := a, wordSr := w, symIdx := x } := by
  have plain : ∀ {r : Ret} {t : State}, Host.Outcome.next (s.setRet r) = (.next t : Res) →
      ∃ r a w x, t = { s with ret := r, addrSr := a, wordSr := w, symIdx := x } := by
    intro r t h
    rw [Host.Outcome.next.injEq] at h
    exact ⟨r, s.addrSr, s.wordSr, s.symIdx, h.symm⟩
  have latched : ∀ {u : State} {r : Ret} {t : State}, (∃ a w x, u = { s with addrSr := a, wordSr := w, symIdx := x }) →
      Host.Outcome.next (u.setRet r) = (.next t : Res) →
      ∃ r a w x, t = { s with ret := r, addrSr := a, wordSr := w, symIdx := x } := by
    rintro u r t ⟨a, w, x, rfl⟩ h
    rw [Host.Outcome.next.injEq] at h
    exact ⟨r, a, w, x, h.symm⟩
  cases i with
  | inWin d n => exact plain h
  | matchSym x m sp => exact plain h
  | matchLead x => exact plain h
  | matchRpt x => exact plain h
  | matchZero x => exact plain h
  | matchOne x => exact plain h
  | classifyBit x => exact plain h
  | classifyLength n => exact plain (require_next_iff.1 h).2
  | decodeFrame n => exact latched (latchDecode_frame _ s) (require_next_iff.1 h).2
  | decodeNormal => exact latched (latchNormal_frame s) h
  | assemble16 base => exact latched (latchField_frame _ s) (require_next_iff.1 h).2
  | checksum w => exact plain h
  | decodeRepeat => exact latched ⟨_, _, _, rfl⟩ h
  | key e => exact plain h
  | resolve c => exact plain h
  | codesetOk idx => exact plain h
  | symbolWord x => exact plain h
  | codesetEntry e => exact plain h
  | rawCommandWord w => exact plain h
  | commandCode c =>
    cases hc : commandOfCode c with
    | none => simp [exec, execCommandCode, hc] at h
    | some k => exact plain (by simpa [exec, execCommandCode, hc] using h)
  | outcomeCode o =>
    cases hc : outcomeOfCode o with
    | none => simp [exec, execOutcomeCode, hc] at h
    | some k => exact plain (by simpa [exec, execOutcomeCode, hc] using h)
  | pushOk _ | pushTimeout _ | popOk | popEmpty | init | arm | captureDeliver _ | takeFrame | waitExpire | runDecode
  | runResolve | runPush | rearm | halted => exact absurd hi Bool.false_ne_true

/-! ### Turns and the step -/

/-- The decoder's turn: a tick of a wait, or the operation that FSM and SLOT select. -/
theorem decoderTurn_next {s t : State} (h : decoderTurn s = .next t) :
    (s.decoderWaits = true ∧ t = s.decoderTick) ∨
      ∃ i, decodeFsm (fsmCode s.fsm) (slotCode s.slot) = .ok i ∧ exec i s = .next t := by
  unfold decoderTurn at h
  by_cases hw : s.decoderWaits = true
  · simp only [hw, if_true, Host.Outcome.next.injEq] at h
    exact .inl ⟨hw, h.symm⟩
  · simp only [hw] at h
    cases hd : decodeFsm (fsmCode s.fsm) (slotCode s.slot) with
    | error e => simp [hd] at h
    | ok i => exact .inr ⟨i, rfl, by simpa [hd] using h⟩

/-- The consumer's sample: a completion of the pop in progress, a tick of it, or nothing. -/
theorem consumerTurn_next {s t : State} (h : consumerTurn s = .next t) :
    exec .popOk s = .next t ∨ exec .popEmpty s = .next t ∨ t = s.popTick ∨ t = s := by
  unfold consumerTurn at h
  by_cases hb : s.popBusy = true
  · by_cases hq : s.qEmpty = true
    · by_cases ht : s.popTmr = 0
      · simp only [hb, hq, ht, if_true] at h
        exact .inr (.inl h)
      · simp only [hb, hq, ht, if_true, if_false, Host.Outcome.next.injEq] at h
        exact .inr (.inr (.inl h.symm))
    · simp only [hb, hq, if_true] at h
      exact .inl (by simpa using h)
  · simp [hb] at h
    exact .inr (.inr (.inr h.symm))

/-- The operations that FSM and SLOT select are steps of their own. -/
theorem decodeFsm_own {f : BitVec 3} {x : BitVec 2} {i : Instr} (h : decodeFsm f x = .ok i) :
    enclosingStep i = none := by
  unfold decodeFsm at h
  repeat' split at h
  all_goals first | (rw [Except.ok.injEq] at h; subst h; rfl) | cases h

/-- The step an operation is part of is a step of its own. -/
theorem enclosingStep_own {i j : Instr} (h : enclosingStep i = some j) : enclosingStep j = none := by
  unfold enclosingStep at h
  split at h <;> first | (rw [Option.some.injEq] at h; subst h; rfl) | cases h

/-- Running an operation as a step runs it, or the step it is part of where it is enabled. -/
theorem runStep_next {i : Instr} {s t : State} (h : runStep i s = .next t) :
    (enclosingStep i = none ∧ exec i s = .next t) ∨
      ∃ j u, enclosingStep i = some j ∧ exec i s = .next u ∧ exec j s = .next t := by
  unfold runStep at h
  cases hj : enclosingStep i with
  | none => exact .inl ⟨rfl, by simpa [hj] using h⟩
  | some j =>
    rw [hj] at h
    cases he : exec i s with
    | next u => exact .inr ⟨j, u, rfl, rfl, by simpa [he] using h⟩
    | fault f => simp [he] at h
    | refused r => simp [he] at h

/-- What an input does: one operation that is a step of its own, a tick of one side, the scheduling of the two turns of
an edge, the begin of a pop, new port values, a reset of both sides, nothing. -/
theorem applyInput_next {x : Input} {u t : State} (h : applyInput x u = .next t) :
    (∃ i, exec i u = .next t ∧ enclosingStep i = none) ∨
      (u.decoderWaits = true ∧ t = u.decoderTick) ∨ t = u.popTick ∨ t = u ∨
      (∃ more, t = { u with inputs := more }) ∨ (∃ tm, t = u.beginPop tm) ∨ (∃ p, t = { u with ports := p }) ∨
      (x = .reset true true ∧ t = u.applyReset) := by
  cases x with
  | op c =>
    simp only [applyInput, runWord] at h
    cases hd : decode c with
    | error e => simp [hd] at h
    | ok i =>
      rw [hd] at h
      rcases runStep_next h with ⟨hi, he⟩ | ⟨j, _, hj, _, he⟩
      · exact .inl ⟨i, he, hi⟩
      · exact .inl ⟨j, he, enclosingStep_own hj⟩
  | clkD =>
    rcases decoderTurn_next h with hw | ⟨i, hi, he⟩
    · exact .inr (.inl hw)
    · exact .inl ⟨i, he, decodeFsm_own hi⟩
  | clkC =>
    rcases consumerTurn_next h with he | he | ht | ht
    · exact .inl ⟨_, he, rfl⟩
    · exact .inl ⟨_, he, rfl⟩
    · exact .inr (.inr (.inl ht))
    · exact .inr (.inr (.inr (.inl ht)))
  | clkBoth =>
    simp only [applyInput, Host.Outcome.next.injEq] at h
    exact .inr (.inr (.inr (.inr (.inl ⟨_, h.symm⟩))))
  | popStart tm =>
    simp only [applyInput, require_next_iff, Host.Outcome.next.injEq] at h
    exact .inr (.inr (.inr (.inr (.inr (.inl ⟨tm, h.2.symm⟩)))))
  | config p =>
    simp only [applyInput, Host.Outcome.next.injEq] at h
    exact .inr (.inr (.inr (.inr (.inr (.inr (.inl ⟨p, h.symm⟩))))))
  | reset d c =>
    cases d <;> cases c <;> simp [applyInput] at h
    · exact .inr (.inr (.inr (.inl h.symm)))
    · exact .inr (.inr (.inr (.inr (.inr (.inr (.inr ⟨rfl, h.symm⟩))))))

/-- With nothing scheduled a step is the agents' own turns: the decoder's tick, or the edge both sides share while a pop
is in progress. -/
theorem step_own {s : State} (h : s.inputs = []) :
    step s = applyInput (if s.popBusy then .clkBoth else .clkD) s.clearPulses := by
  simp [step, nextStep, h]

/-- A scheduled input is taken from the list and applied, the pulses of the last step low. -/
theorem step_input {s : State} {x : Input} {rest : List Input} (h : s.inputs = x :: rest) :
    step s = applyInput x { s.clearPulses with inputs := rest } := by
  simp [step, nextStep, h]

/-- What a step can do to the state `u` it starts its work on (the pulses low, the input taken). -/
theorem step_next {s t : State} (h : step s = .next t) :
    ∃ u rest, u = { s.clearPulses with inputs := rest } ∧
      ((∃ i, exec i u = .next t ∧ enclosingStep i = none) ∨
        (u.decoderWaits = true ∧ t = u.decoderTick) ∨ t = u.popTick ∨ t = u ∨
        (∃ more, t = { u with inputs := more }) ∨ (∃ tm, t = u.beginPop tm) ∨ (∃ p, t = { u with ports := p }) ∨
        (s.inputs = .reset true true :: rest ∧ t = u.applyReset)) := by
  cases hin : s.inputs with
  | nil =>
    refine ⟨s.clearPulses, [], by rw [← hin]; rfl, ?_⟩
    have h' := applyInput_next ((step_own hin).symm.trans h)
    have hne : (if s.popBusy then Input.clkBoth else .clkD) ≠ .reset true true := by split <;> simp
    simpa only [hne, reduceCtorEq, false_and, or_false] using h'
  | cons x rest =>
    refine ⟨_, rest, rfl, ?_⟩
    have h' := applyInput_next ((step_input hin).symm.trans h)
    simpa only [List.cons.injEq, and_true] using h'

end Sys2Proof.Machine
end

