-- ==== Sys2Proof/Laws/PerInstr.lean ====
section
/-! SUPPORT. One statement for every constructor of Instr, proved constructor by constructor. -/

namespace Sys2Proof.Laws

/-- The operation word of an operation carries the number of its row in spec/opcode_table.json (1 to 35), and only a
delivered Frame (row 23) has Symbol words after it. -/
def RowOf.Statement (i : Instr) : Prop :=
  (encode i).sel = rowNumber i ∧ 1 ≤ (rowNumber i).toNat ∧ (rowNumber i).toNat ≤ 35 ∧
    ((encode i).frame = [] ∨ rowNumber i = 23)

theorem RowOf.inWin (d : Duration) (n : Nominal) : RowOf.Statement (.inWin d n) :=
  ⟨rfl, by simp [rowNumber], by simp [rowNumber], .inl rfl⟩

theorem RowOf.matchSym (s : SymWord) (m sp : Nominal) : RowOf.Statement (.matchSym s m sp) :=
  ⟨rfl, by simp [rowNumber], by simp [rowNumber], .inl rfl⟩

theorem RowOf.matchLead (s : SymWord) : RowOf.Statement (.matchLead s) :=
  ⟨rfl, by simp [rowNumber], by simp [rowNumber], .inl rfl⟩

theorem RowOf.matchRpt (s : SymWord) : RowOf.Statement (.matchRpt s) :=
  ⟨rfl, by simp [rowNumber], by simp [rowNumber], .inl rfl⟩

theorem RowOf.matchZero (s : SymWord) : RowOf.Statement (.matchZero s) :=
  ⟨rfl, by simp [rowNumber], by simp [rowNumber], .inl rfl⟩

theorem RowOf.matchOne (s : SymWord) : RowOf.Statement (.matchOne s) :=
  ⟨rfl, by simp [rowNumber], by simp [rowNumber], .inl rfl⟩

theorem RowOf.classifyBit (s : SymWord) : RowOf.Statement (.classifyBit s) :=
  ⟨rfl, by simp [rowNumber], by simp [rowNumber], .inl rfl⟩

theorem RowOf.classifyLength (n : BitVec 7) : RowOf.Statement (.classifyLength n) :=
  ⟨rfl, by simp [rowNumber], by simp [rowNumber], .inl rfl⟩

theorem RowOf.decodeFrame (n : BitVec 7) : RowOf.Statement (.decodeFrame n) :=
  ⟨rfl, by simp [rowNumber], by simp [rowNumber], .inl rfl⟩

theorem RowOf.decodeNormal : RowOf.Statement .decodeNormal :=
  ⟨rfl, by simp [rowNumber], by simp [rowNumber], .inl rfl⟩

theorem RowOf.assemble16 (base : BitVec 7) : RowOf.Statement (.assemble16 base) :=
  ⟨rfl, by simp [rowNumber], by simp [rowNumber], .inl rfl⟩

theorem RowOf.checksum (w : BitVec 16) : RowOf.Statement (.checksum w) :=
  ⟨rfl, by simp [rowNumber], by simp [rowNumber], .inl rfl⟩

theorem RowOf.decodeRepeat : RowOf.Statement .decodeRepeat :=
  ⟨rfl, by simp [rowNumber], by simp [rowNumber], .inl rfl⟩

theorem RowOf.key (e : BitVec 16) : RowOf.Statement (.key e) :=
  ⟨rfl, by simp [rowNumber], by simp [rowNumber], .inl rfl⟩

theorem RowOf.resolve (c : BitVec 8) : RowOf.Statement (.resolve c) :=
  ⟨rfl, by simp [rowNumber], by simp [rowNumber], .inl rfl⟩

theorem RowOf.codesetOk (idx : Nat) : RowOf.Statement (.codesetOk idx) :=
  ⟨rfl, by simp [rowNumber], by simp [rowNumber], .inl rfl⟩

theorem RowOf.pushOk (cmd : BitVec 3) : RowOf.Statement (.pushOk cmd) :=
  ⟨rfl, by simp [rowNumber], by simp [rowNumber], .inl rfl⟩

theorem RowOf.pushTimeout (cmd : BitVec 3) : RowOf.Statement (.pushTimeout cmd) :=
  ⟨rfl, by simp [rowNumber], by simp [rowNumber], .inl rfl⟩

theorem RowOf.popOk : RowOf.Statement .popOk :=
  ⟨rfl, by simp [rowNumber], by simp [rowNumber], .inl rfl⟩

theorem RowOf.popEmpty : RowOf.Statement .popEmpty :=
  ⟨rfl, by simp [rowNumber], by simp [rowNumber], .inl rfl⟩

theorem RowOf.init : RowOf.Statement .init :=
  ⟨rfl, by simp [rowNumber], by simp [rowNumber], .inl rfl⟩

theorem RowOf.arm : RowOf.Statement .arm :=
  ⟨rfl, by simp [rowNumber], by simp [rowNumber], .inl rfl⟩

theorem RowOf.captureDeliver (f : List SymWord) : RowOf.Statement (.captureDeliver f) :=
  ⟨rfl, by simp [rowNumber], by simp [rowNumber], .inr rfl⟩

theorem RowOf.takeFrame : RowOf.Statement .takeFrame :=
  ⟨rfl, by simp [rowNumber], by simp [rowNumber], .inl rfl⟩

theorem RowOf.waitExpire : RowOf.Statement .waitExpire :=
  ⟨rfl, by simp [rowNumber], by simp [rowNumber], .inl rfl⟩

theorem RowOf.runDecode : RowOf.Statement .runDecode :=
  ⟨rfl, by simp [rowNumber], by simp [rowNumber], .inl rfl⟩

theorem RowOf.runResolve : RowOf.Statement .runResolve :=
  ⟨rfl, by simp [rowNumber], by simp [rowNumber], .inl rfl⟩

theorem RowOf.runPush : RowOf.Statement .runPush :=
  ⟨rfl, by simp [rowNumber], by simp [rowNumber], .inl rfl⟩

theorem RowOf.rearm : RowOf.Statement .rearm :=
  ⟨rfl, by simp [rowNumber], by simp [rowNumber], .inl rfl⟩

theorem RowOf.halted : RowOf.Statement .halted :=
  ⟨rfl, by simp [rowNumber], by simp [rowNumber], .inl rfl⟩

theorem RowOf.symbolWord (s : SymWord) : RowOf.Statement (.symbolWord s) :=
  ⟨rfl, by simp [rowNumber], by simp [rowNumber], .inl rfl⟩

theorem RowOf.codesetEntry (e : BitVec 16) : RowOf.Statement (.codesetEntry e) :=
  ⟨rfl, by simp [rowNumber], by simp [rowNumber], .inl rfl⟩

theorem RowOf.rawCommandWord (w : BitVec 16) : RowOf.Statement (.rawCommandWord w) :=
  ⟨rfl, by simp [rowNumber], by simp [rowNumber], .inl rfl⟩

theorem RowOf.commandCode (c : BitVec 3) : RowOf.Statement (.commandCode c) :=
  ⟨rfl, by simp [rowNumber], by simp [rowNumber], .inl rfl⟩

theorem RowOf.outcomeCode (o : BitVec 4) : RowOf.Statement (.outcomeCode o) :=
  ⟨rfl, by simp [rowNumber], by simp [rowNumber], .inl rfl⟩

end Sys2Proof.Laws
end

