-- ==== Sys2Proof/Tests/Slice0.lean ====
section
/-! SUPPORT. Tests: ill-formed operations are refused; words written out from the spec decode to their operations; the
vectors of 95_test_vectors.md, one step each; and for every statement with hypotheses a state and operands that meet them
(`meets_<statement>_<clause>`). Expected values come from the spec, by the vector named in each comment. -/

namespace Sys2Proof.Tests

open Sys2Proof Sys2Proof.Machine

/-! ### Helpers -/

/-- The running block of the vectors of section 6: codeset T0, standard timing, S_WAIT with the capture armed. -/
def running : State :=
  { State.reset with fsm := .wait, slot := .armed, csActive := Config.t0.entries, trace := [.arm] }

/-- `running` with a Frame in the slot and the decoder in `f`. -/
def holding (f : Fsm) (frame : List SymWord) : State :=
  { running with
    fsm := f, slot := .full, fbCount := BitVec.ofNat 7 frame.length, fb := writeFrame State.reset.fb frame }

/-- E of section 3. -/
def frameE : List SymWord := encFrame .standard 0xFF00 0xF2

/-- E with symbol `i` replaced. -/
def frameWith (i : Nat) (mark space : Duration) : List SymWord := frameE.set i (symOf mark space)

/-- Sixteen entries, PlayPause first and VolumeDown last. -/
def sixteen : List Command := .playPause :: (List.replicate 14 .mute ++ [.volumeDown])

/-- `running` with the push of `c` in progress on the queue `q` (44_decode_loop.md R206). -/
def pushing (c : Command) (q : List Command) : State := { running with fsm := .push, slot := .full, pendCmd := c, q := q }

/-- QMEM that holds `sixteen` from word 15 on, for RD_PTR 31. -/
def sixteenFrom15 : Vector (BitVec 3) 16 := ((Vector.replicate 16 3).set 15 0).set 14 5

/-- The value an operation returns; none where it stops. -/
def retOf (o : Res) : Option Ret :=
  match o with
  | .next t => some t.ret
  | .fault _ => none
  | .refused _ => none

/-- A field of the next state; none where it stops. -/
def after {α : Type} (f : State → α) (o : Res) : Option α :=
  match o with
  | .next t => some (f t)
  | .fault _ => none
  | .refused _ => none

/-- The result of DECODE on a Frame in a mode. -/
def decodedAs (v : Variant) (frame : List SymWord) : DecodeResult :=
  decodeAnyFrame frame.length (writeFrame State.reset.fb frame) v

/-- An operation word with no Symbol words. -/
def word (sel : BitVec 8) (opnd : BitVec 56) : Code := { sel := sel, opnd := opnd, frame := [] }

/-- What an operation word decodes to; none where it is rejected. -/
def decoded (c : Code) : Option Instr :=
  match decode c with
  | .ok i => some i
  | .error _ => none

/-! ### Ill-formed operations, one for each check -/

theorem test_wf_classifyLength : (Instr.classifyLength 65).wellFormed = false := by decide
theorem test_wf_decodeFrame : (Instr.decodeFrame 127).wellFormed = false := by decide
theorem test_wf_assemble16 : (Instr.assemble16 49).wellFormed = false := by decide
theorem test_wf_codesetOk : (Instr.codesetOk (2 ^ 56)).wellFormed = false := by decide
theorem test_wf_pushOk : (Instr.pushOk 6).wellFormed = false := by decide
theorem test_wf_pushTimeout : (Instr.pushTimeout 7).wellFormed = false := by decide
theorem test_wf_captureDeliver : (Instr.captureDeliver (List.replicate 65 0)).wellFormed = false := by decide
theorem test_wf_commandCode : (Instr.commandCode 6).wellFormed = false := by decide
theorem test_wf_outcomeCode : (Instr.outcomeCode 10).wellFormed = false := by decide

/-! ### Words written out from the spec's encodings (opcode_table.json, 95_test_vectors.md section 0) -/

/-- d = 9000 with the nominal 9000 (code 4) in bits 26..24. -/
theorem test_word_inWin : decoded (word 1 (4 * 2 ^ 24 + 9000)) = some (.inWin 9000 .n9000) := by decide
/-- B1 against mark 562 (code 0) and space 1675 (code 1). -/
theorem test_word_matchSym :
    decoded (word 2 (1 * 2 ^ 53 + 0 * 2 ^ 50 + 0x0000D17000232)) =
      some (.matchSym (symOf 562 1675) .n562 .n1675) := by decide
theorem test_word_matchLead : decoded (word 3 0x0002329002328) = some (.matchLead (symOf 9000 4500)) := by decide
theorem test_word_matchRpt : decoded (word 4 0x0001195002328) = some (.matchRpt (symOf 9000 2250)) := by decide
theorem test_word_matchZero : decoded (word 5 0x0000465000232) = some (.matchZero (symOf 562 562)) := by decide
theorem test_word_matchOne : decoded (word 6 0x0000D17000232) = some (.matchOne (symOf 562 1675)) := by decide
theorem test_word_classifyBit :
    decoded (word 7 0x2000D16000232) = some (.classifyBit (packSymbol 0 562 1 1675)) := by decide
theorem test_word_classifyLength : decoded (word 8 0b0100010) = some (.classifyLength 34) := by decide
theorem test_word_decodeFrame : decoded (word 9 0b0000010) = some (.decodeFrame 2) := by decide
theorem test_word_decodeNormal : decoded (word 10 0b0100010) = some .decodeNormal := by decide
theorem test_word_decodeNormal_fixed : decoded (word 10 0b0100011) = none := by decide
theorem test_word_assemble16 : decoded (word 11 0b0010001) = some (.assemble16 17) := by decide
theorem test_word_checksum : decoded (word 12 0x0DF2) = some (.checksum 0x0DF2) := by decide
theorem test_word_decodeRepeat : decoded (word 13 0b0000010) = some .decodeRepeat := by decide
theorem test_word_key : decoded (word 14 0xF20D) = some (.key 0xF20D) := by decide
theorem test_word_resolve : decoded (word 15 0xF2) = some (.resolve 0xF2) := by decide
theorem test_word_codesetOk : decoded (word 16 0b1) = some (.codesetOk 1) := by decide
theorem test_word_pushOk : decoded (word 17 0b101) = some (.pushOk 5) := by decide
theorem test_word_pushTimeout : decoded (word 18 0b010) = some (.pushTimeout 2) := by decide
theorem test_word_popOk : decoded (word 19 0b1) = some .popOk := by decide
theorem test_word_popEmpty : decoded (word 20 0b1) = some .popEmpty := by decide
theorem test_word_init : decoded (word 21 0b000) = some .init := by decide
theorem test_word_arm : decoded (word 22 0b000) = some .arm := by decide
theorem test_word_captureDeliver :
    decoded { sel := 23, opnd := 0b01, frame := [0x0001195002328, 0x0000001000232] } =
      some (.captureDeliver (repeatFrame .standard)) := by decide
theorem test_word_takeFrame : decoded (word 24 0b001) = some .takeFrame := by decide
theorem test_word_waitExpire : decoded (word 25 0b001) = some .waitExpire := by decide
theorem test_word_runDecode : decoded (word 26 0b010) = some .runDecode := by decide
theorem test_word_runResolve : decoded (word 27 0b011) = some .runResolve := by decide
theorem test_word_runPush : decoded (word 28 0b100) = some .runPush := by decide
theorem test_word_rearm : decoded (word 29 0b101) = some .rearm := by decide
theorem test_word_halted : decoded (word 30 0b110) = some .halted := by decide
theorem test_word_symbolWord : decoded (word 31 0x00011950008CA) = some (.symbolWord (symOf 2250 2250)) := by decide
theorem test_word_codesetEntry : decoded (word 32 0xE11E) = some (.codesetEntry 0xE11E) := by decide
theorem test_word_rawCommandWord : decoded (word 33 0x0DF2) = some (.rawCommandWord 0x0DF2) := by decide
theorem test_word_commandCode : decoded (word 34 0b101) = some (.commandCode 5) := by decide
theorem test_word_outcomeCode : decoded (word 35 0b1001) = some (.outcomeCode 9) := by decide
theorem test_word_reserved_command : decoded (word 17 0b110) = none := by decide
theorem test_word_reserved_outcome : decoded (word 35 0b1010) = none := by decide
theorem test_word_unknown_row : decoded (word 36 0) = none := by decide
theorem test_word_stray_frame : decoded { sel := 19, opnd := 1, frame := [0] } = none := by decide

/-- Bare words of the table: the FSM codes, the count of a Normal frame, a Symbol word. -/
theorem test_table_word_fsm : decodeTableWord 8 0b110 = some .halted := by decide
theorem test_table_word_count : decodeTableWord 8 0b0100010 = some .decodeNormal := by decide
theorem test_table_word_symbol : decodeTableWord 56 0x0000D17000232 = some (.symbolWord (symOf 562 1675)) := by decide

/-! ### Timing classifier (section 2) -/

/-- T02, T03. -/
theorem test_inWin_low :
    retOf (exec (.inWin 8850 .n9000) running) = some (.bool true) ∧
      retOf (exec (.inWin 8849 .n9000) running) = some (.bool false) := by decide
/-- T09, T10. -/
theorem test_inWin_high :
    retOf (exec (.inWin 712 .n562) running) = some (.bool true) ∧
      retOf (exec (.inWin 713 .n562) running) = some (.bool false) := by decide
/-- T21, T22. -/
theorem test_matchLead :
    retOf (exec (.matchLead (symOf 9150 4350)) running) = some (.bool true) ∧
      retOf (exec (.matchLead (symOf 9000 2250)) running) = some (.bool false) := by decide
/-- T26, T29. -/
theorem test_matchRpt :
    retOf (exec (.matchRpt (symOf 9000 2250)) running) = some (.bool true) ∧
      retOf (exec (.matchRpt (symOf 2250 2250)) running) = some (.bool false) := by decide
/-- T23 in the terms of R111: mark and space are not exchanged. -/
theorem test_matchSym :
    retOf (exec (.matchSym (symOf 562 1675) .n562 .n1675) running) = some (.bool true) ∧
      retOf (exec (.matchSym (symOf 1675 562) .n562 .n1675) running) = some (.bool false) := by decide
/-- T31, T34. -/
theorem test_matchZero :
    retOf (exec (.matchZero (symOf 562 562)) running) = some (.bool true) ∧
      retOf (exec (.matchZero (symOf 562 1675)) running) = some (.bool false) := by decide
/-- T32, T33. -/
theorem test_matchOne :
    retOf (exec (.matchOne (symOf 562 562)) running) = some (.bool false) ∧
      retOf (exec (.matchOne (symOf 562 1675)) running) = some (.bool true) := by decide
/-- T35, T36. -/
theorem test_classifyBit :
    retOf (exec (.classifyBit (symOf 412 712)) running) = some (.bit (some false)) ∧
      retOf (exec (.classifyBit (symOf 712 1525)) running) = some (.bit (some true)) := by decide
/-- T39, T42. -/
theorem test_classifyBit_levels :
    retOf (exec (.classifyBit (symOf 562 1524)) running) = some (.bit none) ∧
      retOf (exec (.classifyBit (packSymbol 0 562 1 1675)) running) = some (.bit (some true)) := by decide

/-! ### Frame decoder (section 3) -/

/-- VD39, VD40. -/
theorem test_classifyLength :
    retOf (exec (.classifyLength 33) running) = some (.kind .unsupported) ∧
      retOf (exec (.classifyLength 35) running) = some (.kind .unsupported) := by decide
/-- VD02, VD57: the address is no complement pair; the variant mode. -/
theorem test_decode_enc :
    decodedAs .standard (encFrame .standard 0x1234 0x0D) = .normal 0x1234 0x0D ∧
      decodedAs .variant (encFrame .variant 0xABCD 0x5A) = .normal 0xABCD 0x5A := by decide +kernel
/-- VD23, VD32: FB[5] is address bit 4, FB[16] is address bit 15. -/
theorem test_decode_bit_order :
    decodedAs .standard (frameWith 5 562 1525) = .normal 0xFF10 0xF2 ∧
      decodedAs .standard (frameWith 16 562 562) = .normal 0x7F00 0xF2 := by decide +kernel
/-- VD34: BitMismatch beats ChecksumFailed. VD36: FB[33] is not read. -/
theorem test_decode_order :
    decodedAs .standard ((normalFrame .standard 0xFF00 0x0CF2).set 20 (symOf 562 1000)) = .bitMismatch ∧
      decodedAs .standard (frameWith 33 0 0) = .normal 0xFF00 0xF2 := by decide +kernel
/-- VD08, VD16. -/
theorem test_decodeFrame :
    retOf (exec (.decodeFrame 34) (holding .decode (normalFrame .standard 0xFF00 0x0CF2))) =
        some (.decoded .checksumFailed) ∧
      retOf (exec (.decodeFrame 34) (holding .decode (frameWith 0 9500 4500))) = some (.decoded .bitMismatch) := by
  decide +kernel
/-- VD01, VD35. -/
theorem test_decodeNormal :
    retOf (exec .decodeNormal (holding .decode frameE)) = some (.decoded (.normal 0xFF00 0xF2)) ∧
      retOf (exec .decodeNormal (holding .decode (frameWith 32 0 0))) = some (.decoded .bitMismatch) := by
  decide +kernel
/-- VD45, VD52. -/
theorem test_decodeRepeat :
    retOf (exec .decodeRepeat (holding .decode (repeatFrame .standard))) = some (.decoded .repeated) ∧
      retOf (exec .decodeRepeat (holding .decode [symOf 9000 4500, trailSym])) = some (.decoded .bitMismatch) := by
  decide +kernel
/-- The address and the word of E (section 3), and VD33's bad symbol FB[20]. -/
theorem test_assemble16 :
    retOf (exec (.assemble16 17) (holding .decode frameE)) = some (.field (some 0x0DF2)) ∧
      retOf (exec (.assemble16 17) (holding .decode (frameWith 20 562 1000))) = some (.field none) := by decide +kernel
/-- K01, K08. -/
theorem test_checksum :
    retOf (exec (.checksum 0x0DF2) running) = some (.bool true) ∧
      retOf (exec (.checksum 0x0DF3) running) = some (.bool false) := by decide

/-! ### Codeset resolver (section 4) -/

/-- VR01. -/
theorem test_key : retOf (exec (.key 0xF20D) running) = some (.byte 0xF2) := by decide
/-- VR04, VR06. -/
theorem test_resolve :
    retOf (exec (.resolve 0xA5) running) = some (.command (some .volumeDown)) ∧
      retOf (exec (.resolve 0x0D) running) = some (.command none) := by decide
/-- VR09, VR10. -/
theorem test_codesetOk :
    retOf (exec (.codesetOk 0) running) = some (.bool true) ∧
      retOf (exec (.codesetOk 1) running) = some (.bool false) := by decide
/-- VR11, VR13: the keys count, not the entries. -/
theorem test_codesetOk_keys :
    retOf (exec (.codesetOk 0)
        { running with rom := [{ tag := 0, entries := Config.t0.entries.set 1 0xF2FF }] }) = some (.bool false) ∧
      retOf (exec (.codesetOk 0)
        { running with rom := [{ tag := 0, entries := Config.t0.entries.set 1 0xE10D }] }) = some (.bool true) := by
  decide

/-! ### FIFO (section 5) -/

/-- F05: the sixteenth place; F06: no seventeenth. -/
theorem test_pushOk :
    after (fun t => (t.q, t.qmemWord 15, t.wrPtr)) (exec (.pushOk 5) (pushing .volumeDown sixteen.dropLast)) =
        some (sixteen, 5, 16) ∧
      retOf (exec (.pushOk 2) (pushing .next sixteen)) = none := by decide
/-- No push is in progress in S_WAIT and in S_HALT, nor in S_PUSH of another Command (R174, 44_decode_loop.md R206). -/
theorem test_pushOk_notInProgress :
    retOf (exec (.pushOk 0) running) = none ∧ retOf (exec (.pushOk 0) { State.reset with fsm := .halt }) = none ∧
      retOf (exec (.pushOk 5) (pushing .next [])) = none := by decide
/-- F06. -/
theorem test_pushTimeout :
    after (fun t => (t.q, t.ret)) (exec (.pushTimeout 2) (pushing .next sixteen)) = some (sixteen, .bool false) := by
  decide
/-- F09: first in, first out. -/
theorem test_popOk :
    after (fun t => (t.q, t.ret, t.popDone, t.popHit, t.popCmd)) (exec .popOk { running with q := [.mute, .next] }) =
      some ([.next], .command (some .mute), true, true, some 3) := by decide
/-- F03. -/
theorem test_popEmpty :
    after (fun t => (t.q, t.ret, t.popDone, t.popHit)) (exec .popEmpty running) =
      some ([], .command none, true, false) := by decide

/-! ### Decode loop (section 6) -/

/-- L01, L02. -/
theorem test_init :
    after (fun t => (t.fsm, t.slot, t.csActive, t.trace)) (exec .init State.reset) =
        some (.wait, .armed, Config.t0.entries, [.arm]) ∧
      after (fun t => (t.fsm, t.slot, t.lastOutcome, t.fatal))
          (exec .init { State.reset with ports := { Cfg.zero with codesetIdx := 1 } }) =
        some (.halt, .idle, .configError, true) := by decide
/-- R209, inside L01; not inside the INIT of L02, which fails. -/
theorem test_arm :
    after (fun t => (t.slot, t.capArm)) (exec .arm State.reset) = some (.armed, true) ∧
      retOf (exec .arm { State.reset with ports := { Cfg.zero with codesetIdx := 1 } }) = none := by decide
/-- L03, L15. -/
theorem test_captureDeliver :
    after (fun t => (t.slot, t.fbCount, fbRead t.fb 5)) (exec (.captureDeliver frameE) running) =
        some (.full, 34, symOf 562 562) ∧
      retOf (exec (.captureDeliver frameE) (holding .decode frameE)) = none := by decide +kernel
/-- L04. -/
theorem test_takeFrame : after State.fsm (exec .takeFrame (holding .wait frameE)) = some .decode := by decide +kernel
/-- L05. -/
theorem test_waitExpire :
    after (fun t => (t.lastOutcome, t.fsm, t.slot, t.trace)) (exec .waitExpire running) =
      some (.captureTimeout, .wait, .armed, [.arm, .outcome .captureTimeout none none]) := by decide
/-- L06, L07. -/
theorem test_runDecode :
    after (fun t => (t.resAddr, t.resCmd, t.fsm)) (exec .runDecode (holding .decode frameE)) =
        some (0xFF00, 0xF2, .resolve) ∧
      after (fun t => (t.lastOutcome, t.fsm)) (exec .runDecode (holding .decode (repeatFrame .standard))) =
        some (.repeatIgnored, .rearm) := by decide +kernel
/-- L08. -/
theorem test_runDecode_checksum :
    after (fun t => (t.lastOutcome, t.fsm, t.resAddr))
        (exec .runDecode (holding .decode (normalFrame .standard 0xFF00 0x0CF2))) =
      some (.errChecksumFailed, .rearm, 0) := by decide +kernel
/-- L09, L10. -/
theorem test_runResolve :
    after (fun t => (t.pendCmd, t.fsm)) (exec .runResolve { running with fsm := .resolve, resCmd := 0xE1 }) =
        some (.previous, .push) ∧
      after (fun t => (t.lastOutcome, t.fsm)) (exec .runResolve { running with fsm := .resolve, resCmd := 0 }) =
        some (.resolveMiss, .rearm) := by decide
/-- L11. -/
theorem test_runPush_success :
    after (fun t => (t.q, t.lastOutcome, t.fsm)) (exec .runPush { running with fsm := .push }) =
      some ([.playPause], .dispatched, .rearm) := by decide
/-- L12. -/
theorem test_runPush_timeout :
    after (fun t => (t.q, t.lastOutcome, t.fsm)) (exec .runPush { running with fsm := .push, q := sixteen }) =
      some (sixteen, .dispatchTimeout, .rearm) := by decide
/-- L13. -/
theorem test_rearm :
    after (fun t => (t.slot, t.fsm, t.trace)) (exec .rearm { running with fsm := .rearm, slot := .full }) =
      some (.armed, .wait, [.arm, .arm]) := by decide
/-- L14. -/
theorem test_halted :
    after (fun t => decide (t = { State.reset with fsm := .halt })) (exec .halted { State.reset with fsm := .halt }) =
      some true := by decide

/-! ### Word formats -/

/-- 95_test_vectors.md section 0: SYM(0, 562, 1, 1675). -/
theorem test_symbolWord :
    retOf (exec (.symbolWord 0x2000D16000232) running) = some (.symbol 0 562 1 1675) := by decide
/-- T0 row 1. -/
theorem test_codesetEntry : retOf (exec (.codesetEntry 0xE11E) running) = some (.entry 0xE1 0x1E) := by decide
/-- S6. -/
theorem test_rawCommandWord : retOf (exec (.rawCommandWord 0x0DF2) running) = some (.rawWord 0x0D 0xF2) := by decide
/-- 30_encoding.md R92. -/
theorem test_commandCode : retOf (exec (.commandCode 4) running) = some (.command (some .volumeUp)) := by decide
/-- 60_exceptions.md R230. -/
theorem test_outcomeCode : retOf (exec (.outcomeCode 7) running) = some (.outcome .dispatchTimeout) := by decide

/-! ### The step -/

/-- From reset with nothing scheduled the first step is INIT (44_decode_loop.md R200). -/
theorem test_first_step : after State.fsm (step State.reset) = some .wait := by decide
/-- A bare word placed for the next step runs: the FSM code of REARM. -/
theorem test_fetch_rearm :
    after (fun t => (t.fsm, t.slot)) (step (State.reset.withFetchWord 8 5)) = some (.wait, .armed) := by decide
/-- A bare Symbol word placed for the next step runs. -/
theorem test_fetch_symbol :
    after State.ret (step (State.reset.withFetchWord 56 0x0002329002328)) = some (.symbol 1 9000 0 4500) := by decide
/-- A word that names no operation is refused. -/
theorem test_fetch_reserved : retOf (step (State.reset.withFetchWord 8 7)) = none := by decide
/-- A pop that waits takes the entry a push leaves (F04): one sample of clk_c. -/
theorem test_pop_sample :
    after (fun t => (t.q, t.popPort, t.popBusy))
        (step { running with q := [.mute], popBusy := true, popTmr := 5, inputs := [.clkC] }) =
      some ([], .hit .mute, false) := by decide
/-- ARM happens inside INIT (44_decode_loop.md R209): its word runs INIT. -/
theorem test_step_arm :
    after (fun t => (t.fsm, t.slot, t.trace)) (step { State.reset with inputs := [.op (word 22 0)] }) =
      some (.wait, .armed, [.arm]) := by decide
/-- PUSH_OK happens inside RUN_PUSH (R206): its word dispatches, and does nothing in S_WAIT. -/
theorem test_step_pushOk :
    after (fun t => (t.q, t.fsm, t.lastOutcome)) (step { pushing .next [] with inputs := [.op (word 17 2)] }) =
        some ([.next], .rearm, .dispatched) ∧
      retOf (step { running with inputs := [.op (word 17 2)] }) = none := by decide
/-- With nothing scheduled and a pop in progress the agents share an edge (43_dispatch_fifo.md R184, R180). -/
theorem test_own_turns :
    after State.inputs (step { running with popBusy := true }) = some [.clkD, .clkC] ∧
      after State.inputs (step { running with popBusy := true, q := [.mute] }) = some [.clkC, .clkD] := by decide
/-- 10_state.md R25, R36: after DECODE_NORMAL of E the symbol read is FB[32], bit 15 of 0x0DF2, a zero. -/
theorem test_fb_port :
    after (fun t => (t.fbIndex, t.fbWord)) (exec .decodeNormal (holding .decode frameE)) =
      some (32, symOf 562 562) := by decide +kernel

/-! ### States and operands that meet the hypotheses of the statements -/

/-- The keys of T0 are pairwise different. -/
theorem t0_legal : LegalRow Config.t0 := by
  refine ⟨rfl, fun j k h => ?_⟩
  cases j <;> cases k <;> first | exact absurd rfl h | decide

/-- A row whose first two keys are equal is no legal row (VR11). -/
theorem duplicate_illegal : ¬ LegalRow { tag := 0, entries := Config.t0.entries.set 1 0xF2FF } := by
  intro h
  exact h.2 .playPause .previous (by decide) (by decide)

theorem meets_resetEvent :
    { running with inputs := [.reset true true] }.inputs = .reset true true :: [] ∧
      { running with inputs := [.reset true false] }.inputs = .reset true false :: [] ∧
      { running with inputs := [.reset false true] }.inputs = .reset false true :: [] := ⟨rfl, rfl, rfl⟩

/-- The last admitted value of each checked operand. -/
theorem meets_encoded :
    (Instr.classifyLength 64).wellFormed = true ∧ (Instr.decodeFrame 64).wellFormed = true ∧
      (Instr.assemble16 48).wellFormed = true ∧ (Instr.codesetOk (2 ^ 56 - 1)).wellFormed = true ∧
      (Instr.pushOk 5).wellFormed = true ∧ (Instr.pushTimeout 5).wellFormed = true ∧
      (Instr.captureDeliver (List.replicate 64 0)).wellFormed = true ∧
      (Instr.commandCode 5).wellFormed = true ∧ (Instr.outcomeCode 9).wellFormed = true := by decide

theorem meets_decoded : decoded (word 17 5) = some (.pushOk 5) := by decide

theorem meets_step_word :
    { running with inputs := [.op (word 19 1)] }.inputs = .op (word 19 1) :: [] ∧
      decoded (word 19 1) = some .popOk ∧ enclosingStep .popOk = none := by decide

/-- The parts of other steps, where they are enabled and where they are not. -/
theorem meets_step_parts :
    (decoded (word 22 0) = some .arm ∧ enclosingStep .arm = some .init ∧ (∃ v, exec .arm State.reset = .next v) ∧
        ∃ r, exec .arm running = .refused r) ∧
      (decoded (word 17 2) = some (.pushOk 2) ∧ enclosingStep (.pushOk 2) = some .runPush ∧
        (∃ v, exec (.pushOk 2) (pushing .next []) = .next v) ∧ ∃ r, exec (.pushOk 2) running = .refused r) ∧
      (decoded (word 18 2) = some (.pushTimeout 2) ∧ enclosingStep (.pushTimeout 2) = some .runPush ∧
        (∃ v, exec (.pushTimeout 2) (pushing .next sixteen) = .next v) ∧
        ∃ r, exec (.pushTimeout 2) (pushing .next []) = .refused r) :=
  ⟨⟨by decide, rfl, ⟨_, rfl⟩, ⟨_, rfl⟩⟩, ⟨by decide, rfl, ⟨_, rfl⟩, ⟨_, rfl⟩⟩, ⟨by decide, rfl, ⟨_, rfl⟩, ⟨_, rfl⟩⟩⟩

theorem meets_step_inputs :
    { running with inputs := [.config Cfg.zero] }.inputs = .config Cfg.zero :: [] ∧
      { running with inputs := [.clkBoth] }.inputs = .clkBoth :: [] ∧ running.q = [] ∧
      { running with q := [.mute], inputs := [.clkBoth] }.q ≠ [] ∧
      { running with popBusy := true }.inputs = [] ∧ { running with popBusy := true }.popBusy = true := by decide

/-- A word that names no row, the first above the table's 35. -/
theorem meets_step_undecodable :
    { running with inputs := [.op (word 36 0)] }.inputs = .op (word 36 0) :: [] ∧
      ∃ e, Sys2Proof.decode (word 36 0) = .error e := ⟨rfl, ⟨_, rfl⟩⟩

theorem meets_step_popStart :
    { running with inputs := [.popStart 3] }.inputs = .popStart 3 :: [] ∧
      { running with inputs := [.popStart 3] }.popBusy = false ∧
      { running with inputs := [.popStart 3], popBusy := true }.popBusy = true := by decide

/-- One state for each clause of DecoderRunsTheSelectedOperation; the timers and the queue at their boundary. -/
theorem meets_decoder_clauses :
    (State.reset.inputs = [] ∧ State.reset.popBusy = false ∧ State.reset.fsm = .init) ∧
      ({ State.reset with inputs := [.clkD] }.inputs = .clkD :: [] ∧ running.popBusy = false) ∧
      (running.inputs = [] ∧ running.fsm = .wait ∧ running.slot = .armed ∧ running.waitTmr = 0) ∧
      ({ running with waitTmr := 1 }.fsm = .wait ∧ { running with waitTmr := 1 }.slot = .armed ∧
        { running with waitTmr := 1 }.waitTmr ≠ 0) ∧
      ({ running with slot := .full }.fsm = .wait ∧ { running with slot := .full }.slot = .full) ∧
      ({ running with slot := .idle }.fsm = .wait ∧ { running with slot := .idle }.slot = .idle) ∧
      { running with fsm := .decode }.fsm = .decode ∧ { running with fsm := .resolve }.fsm = .resolve ∧
      ({ running with fsm := .push, q := sixteen.dropLast }.fsm = .push ∧
        { running with fsm := .push, q := sixteen.dropLast }.q.length ≠ 16) ∧
      ({ running with fsm := .push, q := sixteen }.q.length = 16 ∧
        { running with fsm := .push, q := sixteen }.pushTmr = 0) ∧
      ({ running with fsm := .push, q := sixteen, pushTmr := 1 }.q.length = 16 ∧
        { running with fsm := .push, q := sixteen, pushTmr := 1 }.pushTmr ≠ 0) ∧
      { running with fsm := .rearm }.fsm = .rearm ∧ { running with fsm := .halt }.fsm = .halt := by decide

/-- Two Symbols that differ in their levels alone (T42); two states of one mode, and two of different modes. -/
theorem meets_onlyDurations :
    symDuration0 (packSymbol 0 562 1 1675) = symDuration0 (symOf 562 1675) ∧
      symDuration1 (packSymbol 0 562 1 1675) = symDuration1 (symOf 562 1675) ∧
      packSymbol 0 562 1 1675 ≠ symOf 562 1675 ∧ running.cfg.variant = State.reset.cfg.variant ∧
      { running with cfg := { Cfg.zero with variant := .variant } }.cfg.variant ≠ running.cfg.variant := by decide

theorem meets_kind : (64 : BitVec 7).toNat ≤ 64 ∧ 64 < (65 : BitVec 7).toNat := by decide

theorem meets_decode_counts :
    (64 : BitVec 7) ≠ 34 ∧ (64 : BitVec 7) ≠ 2 ∧ (64 : BitVec 7).toNat ≤ 64 ∧ 64 < (65 : BitVec 7).toNat := by decide

/-- The last base whose sixteen symbols lie inside FB, with symbols that carry a field and with one that does not. -/
theorem meets_assembly :
    (48 : BitVec 7).toNat + 16 ≤ 64 ∧ 64 < (49 : BitVec 7).toNat + 16 ∧
      CarriesField (Vector.replicate 64 (symOf 562 1675)) 48 0xFFFF ∧
      HasBadSymbol (writeFrame (Vector.replicate 64 (symOf 562 1675)) [symOf 562 713]) 0 := by decide +kernel

/-- E carries the address 0xFF00 and the word 0x0DF2 (section 3 of 95_test_vectors.md). -/
theorem meets_frame_good :
    IsLead .standard (fbRead (holding .decode frameE).fb 0) ∧ CarriesField (holding .decode frameE).fb 1 0xFF00 ∧
      CarriesField (holding .decode frameE).fb 17 0x0DF2 := by decide +kernel

/-- VD16, VD21, VD33: each way a Normal frame fails. -/
theorem meets_frame_bad :
    ¬ IsLead .standard (fbRead (holding .decode (frameWith 0 9500 4500)).fb 0) ∧
      HasBadSymbol (holding .decode (frameWith 5 562 713)).fb 1 ∧
      HasBadSymbol (holding .decode (frameWith 20 562 1000)).fb 17 := by decide +kernel

/-- E and E with FB[33] replaced; a Repeat and a Repeat with FB[1] replaced. -/
theorem meets_unread_normal :
    (∀ i ≤ 32, fbRead (holding .decode frameE).fb i = fbRead (holding .decode (frameWith 33 0 0)).fb i) ∧
      (holding .decode frameE).fb ≠ (holding .decode (frameWith 33 0 0)).fb ∧
      (holding .decode frameE).fbCount = 34 := by decide +kernel
theorem meets_unread_repeat :
    fbRead (holding .decode (repeatFrame .standard)).fb 0 = fbRead (holding .decode [rptSym .standard, 0]).fb 0 ∧
      (holding .decode (repeatFrame .standard)).fbCount = 2 := by decide +kernel
theorem meets_unread_runs :
    (∃ t, exec (.decodeFrame 34) (holding .decode frameE) = .next t) ∧
      (∃ t, exec .runDecode (holding .decode frameE) = .next t) ∧
      (∃ t, exec (.decodeFrame 2) (holding .decode (repeatFrame .standard)) = .next t) ∧
      ∃ t, exec .runDecode (holding .decode (repeatFrame .standard)) = .next t :=
  ⟨⟨_, rfl⟩, ⟨_, rfl⟩, ⟨_, rfl⟩, ⟨_, rfl⟩⟩

theorem meets_transmitted :
    (holding .decode frameE).cfg.variant = .standard ∧
      (holding .decode frameE).fb = writeFrame State.reset.fb (encFrame .standard 0xFF00 0xF2) := ⟨rfl, rfl⟩

/-- VD08: one bit of the check byte wrong. -/
theorem meets_wrongCheck :
    BitVec.extractLsb' 8 8 0x0CF2#16 ≠ ~~~ BitVec.extractLsb' 0 8 0x0CF2#16 ∧
      (holding .decode (normalFrame .standard 0xFF00 0x0CF2)).fsm = .decode ∧
      (holding .decode (normalFrame .standard 0xFF00 0x0CF2)).fbCount = 34 := by decide +kernel

/-- The first and the last key of T0, and a byte that is no key (VR03, VR04, VR07). -/
theorem meets_resolve_hit :
    keyOf (entryOf running.csActive .volumeDown) = 0xA5 ∧
      ∀ j : Command, j ≠ .volumeDown → keyOf (entryOf running.csActive j) ≠ 0xA5 := by
  refine ⟨by decide, fun j h => ?_⟩
  cases j <;> first | exact absurd rfl h | decide
theorem meets_resolve_miss : ∀ k : Command, keyOf (entryOf running.csActive k) ≠ 0xFF := by
  intro k
  cases k <;> decide

theorem meets_push :
    ((pushing .next sixteen.dropLast).fsm = .push ∧ .next = (pushing .next sixteen.dropLast).pendCmd ∧
        (pushing .next sixteen.dropLast).q.length < 16) ∧
      (pushing .next sixteen).q.length = 16 ∧ running.fsm ≠ .push ∧ .mute ≠ (pushing .next []).pendCmd ∧
      6 ≤ (6 : BitVec 3).toNat := by decide

theorem meets_pop : { running with q := sixteen }.q = .playPause :: sixteen.tail ∧ running.q = [] := by decide

/-- Pointers about to wrap, a queue about to fill, a full queue. -/
theorem meets_pointers :
    ({ pushing .next sixteen.dropLast with rdPtr := 31, qmem := sixteenFrom15 }.q.length ≤ 16 ∧
        (∀ j < 15, ((sixteen.dropLast)[j]?).map commandCode =
          some ({ pushing .next sixteen.dropLast with rdPtr := 31, qmem := sixteenFrom15 }.qmemWord ((31 + j) % 16)))) ∧
      (∃ t, exec (.pushOk (commandCode .next))
        { pushing .next sixteen.dropLast with rdPtr := 31, qmem := sixteenFrom15 } = .next t) ∧
      (∃ t, exec .runPush { pushing .next sixteen.dropLast with rdPtr := 31, qmem := sixteenFrom15 } = .next t) ∧
      (∀ j < 16, (sixteen[j]?).map commandCode =
        some ({ running with q := sixteen, rdPtr := 31, qmem := sixteenFrom15 }.qmemWord ((31 + j) % 16))) ∧
      ∃ t, exec .popOk { running with q := sixteen, rdPtr := 31, qmem := sixteenFrom15 } = .next t :=
  ⟨⟨by decide, by decide⟩, ⟨_, rfl⟩, ⟨_, rfl⟩, by decide, ⟨_, rfl⟩⟩

/-- For the statements over every operation that answers a next state: one that pushes, one that pops, one that moves
FSM, one that raises an outcome. -/
theorem meets_exec_next :
    (∃ t, exec .runPush { running with fsm := .push, q := sixteen.dropLast } = .next t ∧ t.q.length = 16) ∧
      (∃ t, exec .popOk { running with q := sixteen } = .next t ∧ t.q.length = 15) ∧
      (∃ t, exec .takeFrame { running with slot := .full } = .next t ∧ t.fsm ≠ .wait) ∧
      ∃ t, exec .waitExpire running = .next t ∧ running.outcStrobe = false ∧ t.outcStrobe = true := by
  refine ⟨⟨_, rfl, by decide⟩, ⟨_, rfl, by decide⟩, ⟨_, rfl, by decide⟩, ⟨_, rfl, by decide, by decide⟩⟩
/-- ConfigurationError, the other outcome that does not end in S_REARM, and a step with no outcome. -/
theorem meets_exec_outcomes :
    (∃ t, exec .init { State.reset with rom := [] } = .next t ∧ t.outcStrobe = true ∧ t.lastOutcome = .configError) ∧
      (∃ t, exec .rearm { running with fsm := .rearm } = .next t ∧ t.outcStrobe = false) ∧
      ∃ t, exec .runPush { running with fsm := .push } = .next t ∧ t.outcStrobe = true ∧ t.fsm = .rearm := by
  refine ⟨⟨_, rfl, by decide, by decide⟩, ⟨_, rfl, by decide⟩, ⟨_, rfl, by decide, by decide⟩⟩

/-- Each operation of the decode loop runs in its state (WAIT_EXPIRE and HALTED leave FSM where it is) and not in another. -/
theorem meets_loopOperations :
    (Instr.waitExpire ∈ loopOperations ∧ ∃ t, exec .waitExpire running = .next t ∧ t.fsm = running.fsm) ∧
      (Instr.halted ∈ loopOperations ∧ ∃ t, exec .halted { running with fsm := .halt } = .next t ∧ t.fsm = .halt) ∧
      (Instr.init ∈ loopOperations ∧
        ∀ x : Slot, decodeFsm (fsmCode running.fsm) (slotCode x) ≠ .ok Instr.init) ∧
      (Instr.runResolve ∈ loopOperations ∧
        ∀ x : Slot, decodeFsm (fsmCode (pushing .next []).fsm) (slotCode x) ≠ .ok Instr.runResolve) := by
  refine ⟨⟨by decide, _, rfl, rfl⟩, ⟨by decide, _, rfl, rfl⟩, ⟨by decide, ?_⟩, by decide, ?_⟩ <;>
    intro x <;> cases x <;> simp [running, pushing, fsmCode, slotCode, decodeFsm]

theorem meets_queueOrder :
    { running with q := [.mute], trace := [.arm, .pushed .mute], inputs := [.op (word 19 1)] }.queueInOrder ∧
      ∃ t, step { running with q := [.mute], trace := [.arm, .pushed .mute], inputs := [.op (word 19 1)] } = .next t :=
  ⟨rfl, ⟨_, rfl⟩⟩

/-- L01, and L02 with each of the three configuration errors of program P4. -/
theorem meets_init_success :
    State.reset.fsm = .init ∧ State.reset.rom[State.reset.ports.codesetIdx]? = some Config.t0 ∧ LegalRow Config.t0 ∧
      State.reset.slot = .idle := ⟨rfl, rfl, t0_legal, rfl⟩
theorem meets_init_failure :
    (∀ row, { State.reset with rom := [] }.rom[State.reset.ports.codesetIdx]? = some row → ¬ LegalRow row) ∧
      ∀ row, [({ tag := 0, entries := Config.t0.entries.set 1 0xF2FF } : Config.CodesetRow)][0]? = some row →
        ¬ LegalRow row := by
  refine ⟨fun row h => absurd h (by simp), fun row h => ?_⟩
  simp only [List.getElem?_cons_zero, Option.some.injEq] at h
  exact h ▸ duplicate_illegal

/-- An empty Frame, a Frame that fills FB, a delivery that is not enabled (L15); ARM inside an INIT that succeeds, inside
one that fails (no row), and outside S_INIT. -/
theorem meets_deliver :
    ([] : List SymWord).length ≤ 64 ∧ (List.replicate 64 trailSym).length ≤ 64 ∧ running.slot = .armed ∧
      { running with slot := .full }.slot ≠ .armed ∧ State.reset.fsm = .init ∧ State.reset.slot = .idle ∧
      State.reset.rom[State.reset.ports.codesetIdx]? = some Config.t0 ∧ LegalRow Config.t0 ∧
      (∀ row, { State.reset with rom := [] }.rom[State.reset.ports.codesetIdx]? = some row → ¬ LegalRow row) ∧
      running.fsm ≠ .init :=
  ⟨by decide, by decide, rfl, by decide, rfl, rfl, rfl, t0_legal, fun _ h => absurd h (by simp), by decide⟩

theorem meets_wait :
    running.fsm = .wait ∧ running.slot = .armed ∧ { running with slot := .full }.fsm = .wait ∧
      { running with slot := .full }.slot = .full := by decide

/-- RunDecodeConcludes and RunDecodeAlwaysCompletes: a Normal result and a failed one. -/
theorem meets_runDecode :
    (holding .decode frameE).fsm = .decode ∧ (holding .decode frameE).fbCount.toNat ≤ 64 ∧
      after State.ret (exec (.decodeFrame (holding .decode frameE).fbCount) (holding .decode frameE)) =
        some (.decoded (.normal 0xFF00 0xF2)) ∧
      (∃ t, exec .runDecode (holding .decode frameE) = .next t ∧ t.fsm = .resolve) := by
  refine ⟨rfl, by decide, by decide +kernel, ⟨_, rfl, by decide +kernel⟩⟩
theorem meets_runDecode_full_count :
    (holding .decode (List.replicate 64 (symOf 562 562))).fbCount.toNat ≤ 64 ∧
      after State.ret (exec (.decodeFrame 64) (holding .decode (List.replicate 64 (symOf 562 562)))) =
        some (.decoded .unsupportedLength) ∧
      after State.fsm (exec .runDecode (holding .decode (List.replicate 64 (symOf 562 562)))) = some .rearm := by
  decide +kernel

theorem meets_runResolve :
    { running with fsm := .resolve, resCmd := 0xA5 }.fsm = .resolve ∧
      keyOf (entryOf { running with fsm := .resolve, resCmd := 0xA5 }.csActive .volumeDown) =
        { running with fsm := .resolve, resCmd := 0xA5 }.resCmd := by decide

theorem meets_runPush :
    ({ running with fsm := .push, q := sixteen.dropLast }.fsm = .push ∧
        { running with fsm := .push, q := sixteen.dropLast }.q.length < 16) ∧
      { running with fsm := .push, q := sixteen }.fsm = .push ∧
      { running with fsm := .push, q := sixteen }.q.length = 16 := by decide

theorem meets_rearm : { running with fsm := .rearm }.fsm = .rearm ∧ { running with fsm := .halt }.fsm = .halt := by
  decide

/-- A step in each phase, and the step that leaves INIT. -/
theorem meets_phases :
    (∃ t, step { State.reset with fsm := .halt } = .next t ∧ { State.reset with fsm := .halt }.phase = .halt) ∧
      (∃ t, step running = .next t ∧ running.phase = .run) ∧
      (∃ t, step State.reset = .next t ∧ State.reset.phase = .init ∧ t.phase ≠ .init) ∧
      ∀ rest, running.inputs ≠ .reset true true :: rest := by
  refine ⟨⟨_, rfl, by decide⟩, ⟨_, rfl, by decide⟩, ⟨_, rfl, by decide, by decide⟩, ?_⟩
  intro rest h
  exact absurd h (by simp [running, State.reset])

/-- Outside S_INIT for every operation, INIT and ARM among them; in S_INIT for the others. -/
theorem meets_portsIgnored :
    (running.fsm ≠ .init ∧ ∃ r, exec .init running = .refused r) ∧ (∃ t, exec .rearm { running with fsm := .rearm } = .next t) ∧
      (State.reset.fsm = .init ∧ Instr.popEmpty ≠ .init ∧ Instr.popEmpty ≠ .arm ∧
        ∃ t, exec .popEmpty State.reset = .next t) :=
  ⟨⟨by decide, _, rfl⟩, ⟨_, rfl⟩, rfl, by decide, by decide, ⟨_, rfl⟩⟩

/-- ResultRegistersOnlyFromANormalDecode: a decode that writes them. -/
theorem meets_result :
    ∃ t, exec .runDecode (holding .decode frameE) = .next t ∧ t.resAddr ≠ (holding .decode frameE).resAddr := by
  refine ⟨_, rfl, by decide +kernel⟩

/-- Two different states with one tuple; a step of the one, a value the one returns, a refusal of the one. -/
theorem meets_onlyTuple :
    running.tuple = { running with addrSr := 7, rdPtr := 3, waitTmr := 9, qmem := sixteenFrom15 }.tuple ∧
      running ≠ { running with addrSr := 7, rdPtr := 3, waitTmr := 9, qmem := sixteenFrom15 } ∧
      (∃ t, exec .waitExpire running = .next t) ∧
      (returnsValue (.checksum 0x0DF2) = true ∧ ∃ t, exec (.checksum 0x0DF2) running = .next t) ∧
      ∃ r, exec .rearm running = .refused r :=
  ⟨by decide, by decide, ⟨_, rfl⟩, ⟨rfl, ⟨_, rfl⟩⟩, ⟨_, rfl⟩⟩

theorem meets_addressFree : { running with fsm := .resolve }.fsm = .resolve := rfl

/-- The invariant holds of the running block. -/
theorem running_inv : running.Inv := ⟨by decide, by decide, by decide, by decide, fun j h => absurd h (by simp [running, State.reset])⟩

/-- The invariant and the order of events hold of a state that a run reaches, and its step answers a next state. -/
theorem meets_invariant : running.Inv ∧ running.traceInOrder ∧ ∃ t, step running = .next t :=
  ⟨running_inv, rfl, ⟨_, rfl⟩⟩

/-- The invariant of a state with entries queued: QMEM holds them. -/
theorem meets_invariant_queue : { running with q := sixteen, rdPtr := 31, qmem := sixteenFrom15 }.Inv :=
  ⟨by decide, by decide, by decide, by decide, by unfold State.qmemAgrees; decide⟩

theorem meets_lastOutcome :
    lastOutcomeOf running.trace = running.lastOutcome ∧ ∃ t, step running = .next t := ⟨rfl, ⟨_, rfl⟩⟩

/-- A Frame to decode, with no pop in progress and with one. -/
theorem meets_loopReturns :
    ((holding .wait frameE).Inv ∧ (holding .wait frameE).phase = .run ∧ (holding .wait frameE).slot = .full ∧
        (holding .wait frameE).inputs = []) ∧
      { holding .wait frameE with popBusy := true }.popBusy = true :=
  ⟨⟨⟨by decide +kernel, by decide, by decide, by decide, fun j h => absurd h (by simp [holding, running, State.reset])⟩,
    rfl, rfl, rfl⟩, rfl⟩

/-- A pop in progress on an empty queue, on its last sample and before it. -/
theorem meets_popInProgress :
    { running with popBusy := true }.Inv ∧ { running with popBusy := true }.inputs = [] ∧
      { running with popBusy := true }.popTmr.toNat = 0 ∧ { running with popBusy := true, popTmr := 3 }.Inv :=
  ⟨⟨by decide, by decide, by decide, by decide, fun j h => absurd h (by simp [running, State.reset])⟩, rfl, rfl,
    ⟨by decide, by decide, by decide, by decide, fun j h => absurd h (by simp [running, State.reset])⟩⟩

/-- S6 with fifteen entries queued. -/
theorem meets_keyPress :
    (holding .wait frameE).fsm = .wait ∧ (holding .wait frameE).slot = .full ∧ (holding .wait frameE).DecoderTurns 5 ∧
      { holding .wait frameE with inputs := [.clkD, .clkD, .clkD, .clkD, .clkD, .clkC] }.DecoderTurns 5 ∧
      (holding .wait frameE).fbCount = 34 ∧
      (holding .wait frameE).fb = writeFrame State.reset.fb (encFrame (holding .wait frameE).cfg.variant 0xFF00 0xF2) ∧
      { holding .wait frameE with q := sixteen.dropLast }.q.length < 16 ∧
      keyOf (entryOf (holding .wait frameE).csActive .playPause) = 0xF2 ∧
      ∀ j : Command, j ≠ .playPause → keyOf (entryOf (holding .wait frameE).csActive j) ≠ 0xF2 := by
  refine ⟨rfl, rfl, .inl ⟨rfl, rfl⟩, .inr ⟨[.clkC], rfl⟩, rfl, rfl, by decide, by decide, fun j h => ?_⟩
  cases j <;> first | exact absurd rfl h | decide

theorem meets_repeat :
    (holding .wait (repeatFrame .standard)).fsm = .wait ∧ (holding .wait (repeatFrame .standard)).slot = .full ∧
      (holding .wait (repeatFrame .standard)).DecoderTurns 3 ∧ (holding .wait (repeatFrame .standard)).fbCount = 2 ∧
      IsRpt (holding .wait (repeatFrame .standard)).cfg.variant (fbRead (holding .wait (repeatFrame .standard)).fb 0) :=
  ⟨rfl, rfl, .inl ⟨rfl, rfl⟩, rfl, by decide +kernel⟩

/-- The push of section 5 with t = 3 on a full queue, with the decoder alone and with the ticks of its clock scheduled. -/
theorem meets_fullQueue :
    { running with fsm := .push, q := sixteen, pushTmr := 3 }.q.length = 16 ∧
      { running with fsm := .push, q := sixteen, pushTmr := 3 }.DecoderTurns 4 ∧
      { running with fsm := .push, q := sixteen, pushTmr := 3, inputs := List.replicate 4 .clkD }.DecoderTurns 4 ∧
      running.capArm = false ∧ running.outcStrobe = false ∧ running.popPort = .low :=
  ⟨by decide, .inl ⟨rfl, rfl⟩, .inr ⟨[], rfl⟩, rfl, rfl, rfl⟩

theorem meets_popSample :
    { running with popBusy := true, inputs := [.clkC] }.inputs = .clkC :: [] ∧
      { running with popBusy := true, q := sixteen }.q ≠ [] ∧ running.q = [] ∧ running.popTmr = 0 ∧
      { running with popTmr := 1 }.popTmr ≠ 0 ∧ running.popBusy = false := by decide

/-- F11, F12. -/
theorem meets_oneEdge :
    { running with fsm := .push, popBusy := true, q := sixteen, inputs := [.clkBoth] }.q.length = 16 ∧
      { running with fsm := .push, popBusy := true, inputs := [.clkBoth] }.q = [] ∧
      { running with fsm := .push, popBusy := true, inputs := [.clkBoth] }.fsm = .push ∧
      { running with fsm := .push, popBusy := true, inputs := [.clkBoth] }.popBusy = true ∧
      { running with fsm := .push, popBusy := true, inputs := [.clkBoth] }.inputs = [.clkBoth] ∧
      { running with fsm := .push, popBusy := true }.inputs = [] := by decide

theorem meets_codes : 6 ≤ (7 : BitVec 3).toNat ∧ 10 ≤ (15 : BitVec 4).toNat := by decide

end Sys2Proof.Tests
end

section
/-! PROOFS. The values after reset (10_state.md R45): the flags and the pointer that are views of FSM and Q, then the
statement itself. -/

namespace Sys2Proof.Machine

/-- R28: FATAL shows S_HALT and no other state. -/
theorem fatal_eq_false_of_fsm_ne {s : State} (h : s.fsm ≠ .halt) : s.fatal = false :=
  decide_eq_false h

/-- R27. -/
theorem qEmpty_eq_true_of_q_nil {s : State} (h : s.q = []) : s.qEmpty = true := by
  simp [State.qEmpty, h]

/-- R27: an empty queue is not full, since FIFO_DEPTH is not 0. -/
theorem qFull_eq_false_of_q_nil {s : State} (h : s.q = []) : s.qFull = false := by
  simp [State.qFull, h, Config.fifoDepth]

/-- 10_state.md R33, 43_dispatch_fifo.md R183: on an empty queue the two pointers meet. -/
theorem wrPtr_eq_rdPtr_of_q_nil {s : State} (h : s.q = []) : s.wrPtr = s.rdPtr := by
  simp [State.wrPtr, h]

/-- The port pop_done is low while no answer stands on the pop port (R36). -/
theorem popDone_eq_false_of_popPort_low {s : State} (h : s.popPort = .low) : s.popDone = false := by
  simp [State.popDone, h]

/-- Settles O1: the registers hold the values `State.reset` gives them; FATAL follows from FSM, Q_EMPTY, Q_FULL and WR_PTR
from the empty queue, pop_done from the pop port. -/
theorem resetLeavesTheStatedValues : Obligations.ResetLeavesTheStatedValues := by
  have hfsm : State.reset.fsm = .init := rfl
  have hq : State.reset.q = [] := rfl
  have hfatal : State.reset.fatal = false := fatal_eq_false_of_fsm_ne (by simp [hfsm])
  have hwr : State.reset.wrPtr = 0 := wrPtr_eq_rdPtr_of_q_nil hq
  exact ⟨hfsm, rfl, hq, rfl, rfl, rfl, rfl, rfl, hfatal, qEmpty_eq_true_of_q_nil hq, qFull_eq_false_of_q_nil hq,
    rfl, rfl, rfl, rfl, rfl, hwr, rfl, rfl, popDone_eq_false_of_popPort_low rfl⟩

end Sys2Proof.Machine
end

section
/-! PROOFS. The Symbol word (30_encoding.md R80): each field's reading of a packed word, the word's value as a sum of
the fields at their bit weights, then the statement itself. -/

namespace Sys2Proof.Machine

/-- A word packed of two parts has the value of its high part, shifted past the low one, plus that of its low part. -/
theorem toNat_append_eq_add {m n : Nat} (hi : BitVec m) (lo : BitVec n) :
    (hi ++ lo).toNat = 2 ^ n * hi.toNat + lo.toNat := by
  rw [BitVec.toNat_append, ← Nat.shiftLeft_add_eq_or_of_lt lo.isLt, Nat.shiftLeft_eq, Nat.mul_comm]

@[simp] theorem symDuration0_packSymbol (l0 l1 : BitVec 1) (d0 d1 : Duration) :
    symDuration0 (packSymbol l0 d0 l1 d1) = d0 :=
  BitVec.extractLsb'_append_eq_right

@[simp] theorem symLevel0_packSymbol (l0 l1 : BitVec 1) (d0 d1 : Duration) :
    symLevel0 (packSymbol l0 d0 l1 d1) = l0 :=
  calc (l1 ++ d1 ++ l0 ++ d0).extractLsb' 24 1
    _ = (l1 ++ d1 ++ l0).extractLsb' 0 1 := BitVec.extractLsb'_append_eq_of_le (by decide)
    _ = l0 := BitVec.extractLsb'_append_eq_right

@[simp] theorem symDuration1_packSymbol (l0 l1 : BitVec 1) (d0 d1 : Duration) :
    symDuration1 (packSymbol l0 d0 l1 d1) = d1 :=
  calc (l1 ++ d1 ++ l0 ++ d0).extractLsb' 25 24
    _ = (l1 ++ d1 ++ l0).extractLsb' 1 24 := BitVec.extractLsb'_append_eq_of_le (by decide)
    _ = (l1 ++ d1).extractLsb' 0 24 := BitVec.extractLsb'_append_eq_of_le (by decide)
    _ = d1 := BitVec.extractLsb'_append_eq_right

@[simp] theorem symLevel1_packSymbol (l0 l1 : BitVec 1) (d0 d1 : Duration) :
    symLevel1 (packSymbol l0 d0 l1 d1) = l1 :=
  calc (l1 ++ d1 ++ l0 ++ d0).extractLsb' 49 1
    _ = (l1 ++ d1 ++ l0).extractLsb' 25 1 := BitVec.extractLsb'_append_eq_of_le (by decide)
    _ = (l1 ++ d1).extractLsb' 24 1 := BitVec.extractLsb'_append_eq_of_le (by decide)
    _ = l1 := BitVec.extractLsb'_append_eq_left

/-- The weights are those of the fields' lowest bits 0, 24, 25 and 49 (R80). -/
theorem packSymbol_toNat (l0 l1 : BitVec 1) (d0 d1 : Duration) :
    (packSymbol l0 d0 l1 d1).toNat =
      d0.toNat + 2 ^ 24 * l0.toNat + 2 ^ 25 * d1.toNat + 2 ^ 49 * l1.toNat := by
  rw [packSymbol, toNat_append_eq_add, toNat_append_eq_add, toNat_append_eq_add]
  omega

theorem exec_symbolWord (x : SymWord) (s : State) :
    exec (.symbolWord x) s =
      .next { s with ret := .symbol (symLevel0 x) (symDuration0 x) (symLevel1 x) (symDuration1 x) } := rfl

/-- Settles O58: SYMBOL_WORD returns the four readings of its word, each of which gives back the packed field. -/
theorem symbolWordFields : Obligations.SymbolWordFields := by
  intro l0 l1 d0 d1 s
  constructor
  · rw [exec_symbolWord, symLevel0_packSymbol, symDuration0_packSymbol, symLevel1_packSymbol, symDuration1_packSymbol]
  · exact packSymbol_toNat l0 l1 d0 d1

end Sys2Proof.Machine
end

section
/-! PROOFS. The timing classifier (40_timing_classifier.md R110 to R118): what each operation answers, each answer as a
decision about the class's intervals, and its dependence on the two durations alone; then the statements. -/

namespace Sys2Proof.Machine

/-! ### What the operations answer -/

theorem exec_inWin (d : Duration) (n : Nominal) (s : State) :
    exec (.inWin d n) s = .next (s.setRet (.bool (inWindow d (nominalValue n)))) := rfl

theorem exec_matchSym (x : SymWord) (m sp : Nominal) (s : State) :
    exec (.matchSym x m sp) s =
      .next (s.setRet (.bool (matchSymbol x (nominalValue m) (nominalValue sp)))) := rfl

theorem exec_matchLead (x : SymWord) (s : State) :
    exec (.matchLead x) s = .next (s.setRet (.bool (matchesLead x s.cfg.variant))) := rfl

theorem exec_matchRpt (x : SymWord) (s : State) :
    exec (.matchRpt x) s = .next (s.setRet (.bool (matchesRpt x s.cfg.variant))) := rfl

theorem exec_matchZero (x : SymWord) (s : State) :
    exec (.matchZero x) s = .next (s.setRet (.bool (matchesZero x))) := rfl

theorem exec_matchOne (x : SymWord) (s : State) :
    exec (.matchOne x) s = .next (s.setRet (.bool (matchesOne x))) := rfl

theorem exec_classifyBit (x : SymWord) (s : State) :
    exec (.classifyBit x) s = .next (s.setRet (.bit (classifySymbol x))) := rfl

/-! ### The answers in numbers -/

/-- Each test of a window and of a class is known by the condition under which it is `true`; this is the step from there
to its value. -/
theorem eq_decide_of_iff {b : Bool} {p : Prop} [Decidable p] (h : b = true ↔ p) : b = decide p :=
  Bool.eq_iff_iff.2 (h.trans decide_eq_true_iff.symm)

/-- R111 in numbers. -/
theorem matchSymbol_iff (x : SymWord) (mark space : Nat) :
    matchSymbol x mark space = true ↔ InBox x (mark - 150) (mark + 150) (space - 150) (space + 150) := by
  rw [matchSymbol, Bool.and_eq_true, inWindow_iff, inWindow_iff, and_assoc]

/-- R116 in numbers: ONE is tried first, then ZERO. -/
theorem classifySymbol_eq_ite (x : SymWord) :
    classifySymbol x = if IsOne x then some true else if IsZero x then some false else none :=
  if_congr (matchesOne_iff x) rfl (if_congr (matchesZero_iff x) rfl rfl)

/-- Settles O9: the two comparisons of IN_WIN as one decision. -/
theorem inWindowBothEndsInside : Obligations.InWindowBothEndsInside := by
  intro d n s
  rw [exec_inWin, eq_decide_of_iff (inWindow_iff d _), State.setRet]

/-- Settles O10: a window test for each of the two durations. -/
theorem matchNeedsBothDurations : Obligations.MatchNeedsBothDurations := by
  intro x m sp s
  rw [exec_matchSym, eq_decide_of_iff (matchSymbol_iff x _ _), State.setRet]

/-- Settles O11: the mode is read from CFG.VARIANT, and the class of that mode decides. -/
theorem leadAndRepeatUseTheConfiguredMode : Obligations.LeadAndRepeatUseTheConfiguredMode := by
  intro x s
  constructor
  · rw [exec_matchLead, eq_decide_of_iff (matchesLead_iff x _), State.setRet]
  · rw [exec_matchRpt, eq_decide_of_iff (matchesRpt_iff x _), State.setRet]

/-- Settles O12: the two class tests are decisions, and CLASSIFY_BIT tries the one after the other. -/
theorem dataSymbolsByTheirIntervals : Obligations.DataSymbolsByTheirIntervals := by
  intro x s
  refine ⟨?zero, ?one, ?bit⟩
  case zero => rw [exec_matchZero, eq_decide_of_iff (matchesZero_iff x), State.setRet]
  case one => rw [exec_matchOne, eq_decide_of_iff (matchesOne_iff x), State.setRet]
  case bit => rw [exec_classifyBit, classifySymbol_eq_ite, State.setRet]

/-! ### Independence of everything but the durations and the mode (R118) -/

/-- Every class is a window for each of the two durations, so no test can tell such Symbols apart. -/
theorem matchSymbol_congr {x y : SymWord} (h0 : symDuration0 x = symDuration0 y)
    (h1 : symDuration1 x = symDuration1 y) (mark space : Nat) :
    matchSymbol x mark space = matchSymbol y mark space := by
  rw [matchSymbol, matchSymbol, h0, h1]

theorem classifySymbol_congr {x y : SymWord} (h0 : symDuration0 x = symDuration0 y)
    (h1 : symDuration1 x = symDuration1 y) : classifySymbol x = classifySymbol y := by
  have hone : matchesOne x = matchesOne y := matchSymbol_congr h0 h1 _ _
  have hzero : matchesZero x = matchesZero y := matchSymbol_congr h0 h1 _ _
  rw [classifySymbol, classifySymbol, hone, hzero]

/-- Settles O13: each answer is a function of the Symbol's two windows; MATCH_LEAD and MATCH_RPT take the nominal values
from the mode. -/
theorem onlyDurationsAndModeDecideTheClass : Obligations.OnlyDurationsAndModeDecideTheClass := by
  intro x y s t h0 h1
  have hmatch : ∀ mark space, matchSymbol x mark space = matchSymbol y mark space := matchSymbol_congr h0 h1
  refine ⟨fun hv => ⟨⟨_, exec_matchLead x s, ?lead⟩, ⟨_, exec_matchRpt x s, ?rpt⟩⟩,
    ⟨_, exec_matchZero x s, ?zero⟩, ⟨_, exec_matchOne x s, ?one⟩, ⟨_, exec_classifyBit x s, ?bit⟩⟩
  case lead => rw [exec_matchLead, matchesLead, matchesLead, hmatch, hv]
  case rpt => rw [exec_matchRpt, matchesRpt, matchesRpt, hmatch, hv]
  case zero => rw [exec_matchZero, matchesZero, matchesZero, hmatch]
  case one => rw [exec_matchOne, matchesOne, matchesOne, hmatch]
  case bit => rw [exec_classifyBit, classifySymbol_congr h0 h1]

end Sys2Proof.Machine
end

section
/-! PROOFS. The frame decoder (41_frame_decoder.md R130 to R138): what each operation answers, DECODE_NORMAL and
DECODE_REPEAT by the classes of the symbols, then the statements. -/

namespace Sys2Proof.Machine

/-! ### What the operations answer -/

theorem exec_classifyLength_of_le {n : BitVec 7} (hn : n.toNat ≤ 64) (s : State) :
    exec (.classifyLength n) s = .next (s.setRet (.kind (classifyCount n.toNat))) := by
  rw [exec, execClassifyLength, Config.frameCap, decide_eq_true hn, require_true]

theorem exec_classifyLength_of_gt {n : BitVec 7} (hn : 64 < n.toNat) (s : State) :
    exec (.classifyLength n) s = .refused .countOutsideContract := by
  rw [exec, execClassifyLength, Config.frameCap, decide_eq_false hn.not_ge, require_false]

theorem exec_decodeFrame_of_le {n : BitVec 7} (hn : n.toNat ≤ 64) (s : State) :
    exec (.decodeFrame n) s =
      .next ((s.latchDecode n.toNat).setRet (.decoded (decodeAnyFrame n.toNat s.fb s.cfg.variant))) := by
  rw [exec, execDecodeFrame, Config.frameCap, decide_eq_true hn, require_true]

theorem exec_decodeFrame_of_gt {n : BitVec 7} (hn : 64 < n.toNat) (s : State) :
    exec (.decodeFrame n) s = .refused .countOutsideContract := by
  rw [exec, execDecodeFrame, Config.frameCap, decide_eq_false hn.not_ge, require_false]

theorem exec_decodeNormal (s : State) :
    exec .decodeNormal s = .next (s.latchNormal.setRet (.decoded (decodeNormalFrame s.fb s.cfg.variant))) := rfl

theorem exec_decodeRepeat (s : State) :
    exec .decodeRepeat s = .next ((s.atSymbol 0).setRet (.decoded (decodeRepeatFrame s.fb s.cfg.variant))) := rfl

theorem exec_checksum (w : BitVec 16) (s : State) :
    exec (.checksum w) s = .next (s.setRet (.bool (checksumOk w))) := rfl

/-- 10_state.md R21, R25: the frame of the decoder's operations. -/
theorem sameButScan_of_exec {i : Instr} {s t : State} (hi : isPure i = true) (h : exec i s = .next t) :
    SameButScan s t := by
  obtain ⟨r, a, w, x, rfl⟩ := exec_pure_next hi h
  rfl

/-! ### The count -/

/-- R130 on the seven bits of the count. -/
theorem classifyCount_toNat (n : BitVec 7) :
    classifyCount n.toNat = if n = 34 then .normal else if n = 2 then .repeated else .unsupported :=
  have toNat_iff : ∀ m : BitVec 7, n.toNat = m.toNat ↔ n = m := fun _ => BitVec.toNat_inj
  if_congr (toNat_iff 34) rfl (if_congr (toNat_iff 2) rfl rfl)

/-- Settles O14: the count decides, and the contract of U9 bounds it. -/
theorem kindByCountAlone : Obligations.KindByCountAlone := by
  intro n s
  constructor
  · intro hn
    rw [exec_classifyLength_of_le hn, classifyCount_toNat, State.setRet]
  · exact fun hn => exec_classifyLength_of_gt hn s

/-- Settles O15: what DECODE returns and what it latches are both chosen by the kind of the count. -/
theorem decodeDispatchesOnTheCount : Obligations.DecodeDispatchesOnTheCount := by
  intro n s
  refine ⟨?normal, ?repeated, ?unsupported, fun hn => exec_decodeFrame_of_gt hn s⟩
  case normal =>
    rintro rfl
    exact exec_decodeFrame_of_le (by decide) s
  case repeated =>
    rintro rfl
    exact exec_decodeFrame_of_le (by decide) s
  case unsupported =>
    intro h34 h2 hn
    have hkind : classifyCount n.toNat = .unsupported := by rw [classifyCount_toNat, if_neg h34, if_neg h2]
    rw [exec_decodeFrame_of_le hn, State.latchDecode, decodeAnyFrame, hkind, State.setRet]

/-! ### The check byte -/

/-- R89, the sum form: a word and its complement add up to all ones. -/
theorem eq_not_iff_toNat_add {w : Nat} (x y : BitVec w) : x = ~~~y ↔ y.toNat + x.toNat = 2 ^ w - 1 := by
  rw [← BitVec.toNat_inj, BitVec.toNat_not]
  have := x.isLt
  have := y.isLt
  omega

/-- R89, the exclusive-or form. -/
theorem eq_not_iff_xor {w : Nat} (x y : BitVec w) : x = ~~~y ↔ y ^^^ x = BitVec.allOnes w := by
  have hself : y ^^^ ~~~y = BitVec.allOnes w := by
    rw [← BitVec.xor_allOnes, ← BitVec.xor_assoc, BitVec.xor_self, BitVec.zero_xor]
  rw [← hself, BitVec.xor_right_inj]

/-- Settles O18: CHECKSUM is the comparison with the complement, whose other forms hold of any two bytes. -/
theorem checksumIsTheByteComplement : Obligations.ChecksumIsTheByteComplement := by
  intro w s
  refine ⟨?answer, ?swapped, eq_not_iff_xor _ _, eq_not_iff_toNat_add _ _⟩
  case answer => rw [exec_checksum, eq_decide_of_iff (checksumOk_iff w), State.setRet]
  case swapped => rw [eq_comm, BitVec.not_eq_comm]

/-! ### DECODE_NORMAL and DECODE_REPEAT by the classes -/

theorem decodeRepeatFrame_eq_ite (fb : FrameBuffer) (v : Variant) :
    decodeRepeatFrame fb v = if IsRpt v (fbRead fb 0) then .repeated else .bitMismatch :=
  if_congr (matchesRpt_iff _ v) rfl rfl

/-- R133 with symbols of the right classes: only the check byte is left to decide. -/
theorem decodeNormalFrame_of_carries {fb : FrameBuffer} {v : Variant} {a w : BitVec 16}
    (hlead : IsLead v (fbRead fb 0)) (ha : CarriesField fb 1 a) (hw : CarriesField fb 17 w) :
    decodeNormalFrame fb v =
      if w.extractLsb' 8 8 = ~~~ w.extractLsb' 0 8 then .normal a (w.extractLsb' 0 8) else .checksumFailed := by
  rw [decodeNormalFrame, if_pos ((matchesLead_iff _ v).2 hlead), assembleField_of_carries ha,
    assembleField_of_carries hw]
  exact if_congr (checksumOk_iff w) rfl rfl

/-- R132, R133: each of the three defects is found before the check byte is looked at. -/
theorem decodeNormalFrame_of_bad {fb : FrameBuffer} {v : Variant}
    (h : ¬ IsLead v (fbRead fb 0) ∨ HasBadSymbol fb 1 ∨ HasBadSymbol fb 17) :
    decodeNormalFrame fb v = .bitMismatch := by
  rw [decodeNormalFrame, ite_eq_right_iff]
  intro hlead
  rcases h with hnot | hbad | hbad
  · exact absurd ((matchesLead_iff _ v).1 hlead) hnot
  · rw [assembleField_of_bad hbad]
  · cases assembleField fb Config.addrBase with
    | none => rfl
    | some a => rw [assembleField_of_bad hbad]

/-- Settles O20: class RPT of the configured mode decides, in the frame of a pure operation. -/
theorem decodeRepeatByItsFirstSymbol : Obligations.DecodeRepeatByItsFirstSymbol := by
  intro s
  rw [← decodeRepeatFrame_eq_ite]
  exact ⟨_, exec_decodeRepeat s, sameButScan_of_exec rfl (exec_decodeRepeat s), rfl⟩

/-- Settles O19: the two cases of `decodeNormalFrame`, in the frame of a pure operation. -/
theorem decodeNormalInEveryCase : Obligations.DecodeNormalInEveryCase := by
  intro s
  have answer : ∀ r, decodeNormalFrame s.fb s.cfg.variant = r →
      ∃ t, exec .decodeNormal s = .next t ∧ SameButScan s t ∧ t.ret = .decoded r := by
    rintro r rfl
    exact ⟨_, exec_decodeNormal s, sameButScan_of_exec rfl (exec_decodeNormal s), rfl⟩
  constructor
  · exact fun a w hlead ha hw => answer _ (decodeNormalFrame_of_carries hlead ha hw)
  · exact fun hbad => answer _ (decodeNormalFrame_of_bad hbad)

end Sys2Proof.Machine
end

section
/-! PROOFS. The round trip of the Normal frame (41_frame_decoder.md R140): the stimulus symbols of 30_encoding.md R97 lie in
their classes, and a field of a written Frame stands in FB where its symbols stand in the Frame. -/

namespace Sys2Proof.Machine

/-! ### The stimulus symbols in their classes -/

@[simp] theorem symDuration0_symOf (mark space : Duration) : symDuration0 (symOf mark space) = mark :=
  symDuration0_packSymbol 1 0 mark space

@[simp] theorem symDuration1_symOf (mark space : Duration) : symDuration1 (symOf mark space) = space :=
  symDuration1_packSymbol 1 0 mark space

theorem isLead_leadSym (v : Variant) : IsLead v (leadSym v) := by
  cases v <;> simp [IsLead, leadSym, InBox]

theorem isOne_bitSym : IsOne (bitSym true) := by
  simp [IsOne, InBox, bitSym]

theorem isZero_bitSym : IsZero (bitSym false) := by
  simp [IsZero, InBox, bitSym]

/-! ### A written Frame -/

theorem getElem?_bits16 (x : BitVec 16) {i : Nat} (hi : i < 16) : (bits16 x)[i]? = some (bitSym (x.getLsbD i)) := by
  simp [bits16, hi]

theorem fbRead_writeFrame_of_getElem? {fb : FrameBuffer} {f : List SymWord} {i : Nat} {x : SymWord} (hi : i < 64)
    (h : f[i]? = some x) : fbRead (writeFrame fb f) i = x := by
  obtain ⟨hlt, rfl⟩ := List.getElem?_eq_some_iff.1 h
  rw [fbRead_writeFrame fb f i hi, dif_pos hlt]

/-- BITS16(x) anywhere in a Frame carries `x` at that index of FB (R88). -/
theorem carriesField_writeFrame (fb : FrameBuffer) {pre : List SymWord} (x : BitVec 16) (post : List SymWord)
    (hpre : pre.length + 16 ≤ 64) : CarriesField (writeFrame fb (pre ++ (bits16 x ++ post))) pre.length x := by
  intro i hi
  have hread : fbRead (writeFrame fb (pre ++ (bits16 x ++ post))) (pre.length + i) = bitSym (x.getLsbD i) := by
    apply fbRead_writeFrame_of_getElem? (by omega)
    rw [List.getElem?_append_right (Nat.le_add_right _ _), Nat.add_sub_cancel_left,
      List.getElem?_append_left (by simpa [bits16] using hi), getElem?_bits16 x hi]
  rw [hread]
  cases x.getLsbD i with
  | true => exact .inl ⟨rfl, isOne_bitSym⟩
  | false => exact .inr ⟨rfl, isZero_bitSym⟩

/-! ### NORMAL(v, A, W) in the frame buffer (R97) -/

theorem isLead_writeFrame_normalFrame (fb : FrameBuffer) (v : Variant) (a w : BitVec 16) :
    IsLead v (fbRead (writeFrame fb (normalFrame v a w)) 0) := by
  rw [fbRead_writeFrame_of_getElem? (x := leadSym v) (by decide) rfl]
  exact isLead_leadSym v

theorem carriesField_address_normalFrame (fb : FrameBuffer) (v : Variant) (a w : BitVec 16) :
    CarriesField (writeFrame fb (normalFrame v a w)) 1 a := by
  have hframe : normalFrame v a w = [leadSym v] ++ (bits16 a ++ (bits16 w ++ [trailSym])) := by simp [normalFrame]
  rw [hframe]
  exact carriesField_writeFrame fb a _ (by simp)

theorem carriesField_word_normalFrame (fb : FrameBuffer) (v : Variant) (a w : BitVec 16) :
    CarriesField (writeFrame fb (normalFrame v a w)) 17 w := by
  have hframe : normalFrame v a w = (leadSym v :: bits16 a) ++ (bits16 w ++ [trailSym]) := by simp [normalFrame]
  have hlen : (leadSym v :: bits16 a).length = 17 := by simp [bits16]
  rw [hframe, ← hlen]
  exact carriesField_writeFrame fb w _ (by rw [hlen]; decide)

/-! ### The round trip -/

theorem lowByte_commandWord (c : BitVec 8) : (~~~c ++ c).extractLsb' 0 8 = c :=
  BitVec.extractLsb'_append_eq_right

theorem highByte_commandWord (c : BitVec 8) : (~~~c ++ c).extractLsb' 8 8 = ~~~c :=
  BitVec.extractLsb'_append_eq_left

/-- Settles O22: a count of 34 is DECODE_NORMAL; symbols of the right classes with a word that is a complement pair decode
to their address and command, and a transmitted Frame has such symbols. -/
theorem transmittedFrameDecodesToItself : Obligations.TransmittedFrameDecodesToItself := by
  intro s a c
  have classes : IsLead s.cfg.variant (fbRead s.fb 0) → CarriesField s.fb 1 a → CarriesField s.fb 17 (~~~c ++ c) →
      ∃ t, exec (.decodeFrame 34) s = .next t ∧ SameButScan s t ∧ t.ret = .decoded (.normal a c) := by
    intro hlead ha hw
    obtain ⟨t, ht, hsame, hret⟩ := (decodeNormalInEveryCase s).1 a _ hlead ha hw
    rw [highByte_commandWord, lowByte_commandWord, if_pos rfl] at hret
    exact ⟨t, ((decodeDispatchesOnTheCount 34 s).1 rfl).trans ht, hsame, hret⟩
  refine ⟨fun old hfb => classes ?lead ?address ?word, classes⟩
  case lead => rw [hfb]; exact isLead_writeFrame_normalFrame old s.cfg.variant a (commandWord c)
  case address => rw [hfb]; exact carriesField_address_normalFrame old s.cfg.variant a (commandWord c)
  case word => rw [hfb]; exact carriesField_word_normalFrame old s.cfg.variant a (commandWord c)

end Sys2Proof.Machine
end

section
/-! PROOFS. The symbols a decode does not read (41_frame_decoder.md R137): every function of the frame buffer that DECODE
and RUN_DECODE call depends on the symbols it reads alone, and no operation of theirs writes FB. -/

namespace Sys2Proof.Machine

/-- Two frame buffers agree on the symbols that a Frame of this kind has read (R137). -/
def SameWhereRead (k : FrameKind) (fb fb' : FrameBuffer) : Prop :=
  match k with
  | .normal => ∀ i ≤ 32, fbRead fb i = fbRead fb' i
  | .repeated => fbRead fb 0 = fbRead fb' 0
  | .unsupported => True

/-- The same state with other symbols in FB. -/
def State.withFb (fb' : FrameBuffer) (s : State) : State := { s with fb := fb' }

@[simp] theorem State.withFb_fb (s : State) (fb' : FrameBuffer) : (s.withFb fb').fb = fb' := rfl
@[simp] theorem State.withFb_cfg (s : State) (fb' : FrameBuffer) : (s.withFb fb').cfg = s.cfg := rfl
@[simp] theorem State.withFb_fbCount (s : State) (fb' : FrameBuffer) : (s.withFb fb').fbCount = s.fbCount := rfl

/-! ### The values -/

theorem scanField_congr {fb fb' : FrameBuffer} {base n : Nat}
    (h : ∀ i < n, fbRead fb (base + i) = fbRead fb' (base + i)) : scanField fb base n = scanField fb' base n := by
  induction n with
  | zero => rfl
  | succ n ih => rw [scanField, scanField, ih fun i hi => h i (by omega), h n (by omega)]

theorem assembleField_congr {fb fb' : FrameBuffer} {base : Nat}
    (h : ∀ i < 16, fbRead fb (base + i) = fbRead fb' (base + i)) : assembleField fb base = assembleField fb' base := by
  rw [assembleField, assembleField, scanField_congr h]

theorem decodeNormalFrame_congr {fb fb' : FrameBuffer} (v : Variant) (h : ∀ i ≤ 32, fbRead fb i = fbRead fb' i) :
    decodeNormalFrame fb v = decodeNormalFrame fb' v := by
  have haddr : assembleField fb 1 = assembleField fb' 1 :=
    assembleField_congr fun i hi => h _ (by omega)
  have hword : assembleField fb 17 = assembleField fb' 17 :=
    assembleField_congr fun i hi => h _ (by omega)
  rw [decodeNormalFrame, decodeNormalFrame, h 0 (by decide), haddr, hword]

theorem decodeRepeatFrame_congr {fb fb' : FrameBuffer} (v : Variant) (h : fbRead fb 0 = fbRead fb' 0) :
    decodeRepeatFrame fb v = decodeRepeatFrame fb' v := by
  rw [decodeRepeatFrame, decodeRepeatFrame, h]

theorem decodeAnyFrame_congr {n : Nat} {fb fb' : FrameBuffer} (v : Variant)
    (h : SameWhereRead (classifyCount n) fb fb') : decodeAnyFrame n fb v = decodeAnyFrame n fb' v := by
  unfold decodeAnyFrame
  cases hk : classifyCount n with
  | normal =>
    rw [hk] at h
    exact decodeNormalFrame_congr v h
  | repeated =>
    rw [hk] at h
    exact decodeRepeatFrame_congr v h
  | unsupported => rfl

/-! ### The registers of the assembly (10_state.md R21, R25) -/

theorem latchField_fb (base : Nat) (s : State) : (s.latchField base).fb = s.fb := by
  obtain ⟨a, w, i, h⟩ := latchField_frame base s
  rw [h]

theorem latchField_withFb {s : State} {fb' : FrameBuffer} {base : Nat}
    (h : ∀ i < 16, fbRead s.fb (base + i) = fbRead fb' (base + i)) :
    (s.withFb fb').latchField base = (s.latchField base).withFb fb' := by
  unfold State.latchField
  rw [State.withFb_fb, scanField_congr h]
  dsimp only
  split_ifs <;> rfl

theorem latchNormal_withFb {s : State} {fb' : FrameBuffer} (h : ∀ i ≤ 32, fbRead s.fb i = fbRead fb' i) :
    (s.withFb fb').latchNormal = s.latchNormal.withFb fb' := by
  have hfield : assembleField fb' 1 = assembleField s.fb 1 := (assembleField_congr fun i hi => h _ (by omega)).symm
  have haddr : (s.withFb fb').latchField 1 = (s.latchField 1).withFb fb' :=
    latchField_withFb fun i hi => h _ (by omega)
  have hword : ((s.latchField 1).withFb fb').latchField 17 = ((s.latchField 1).latchField 17).withFb fb' :=
    latchField_withFb fun i hi => by rw [latchField_fb]; exact h _ (by omega)
  unfold State.latchNormal
  rw [haddr, hword, State.withFb_fb, State.withFb_cfg, hfield, ← h 0 (by decide)]
  split_ifs <;> rfl

theorem latchDecode_withFb {s : State} {fb' : FrameBuffer} {n : Nat}
    (h : SameWhereRead (classifyCount n) s.fb fb') :
    (s.withFb fb').latchDecode n = (s.latchDecode n).withFb fb' := by
  unfold State.latchDecode
  cases hk : classifyCount n with
  | normal =>
    rw [hk] at h
    exact latchNormal_withFb h
  | repeated => rfl
  | unsupported => rfl

/-! ### RUN_DECODE -/

theorem exec_runDecode {s : State} (h : s.fsm = .decode) :
    exec .runDecode s = .next ((s.latchDecode s.fbCount.toNat).concludeDecode
      (decodeAnyFrame s.fbCount.toNat s.fb s.cfg.variant)) := by
  rw [exec, execRunDecode, decide_eq_true h, require_true]

/-- R204: what RUN_DECODE does with the result does not touch FB. -/
theorem concludeDecode_withFb (r : DecodeResult) (s : State) (fb' : FrameBuffer) :
    (s.withFb fb').concludeDecode r = (s.concludeDecode r).withFb fb' := by
  cases r <;> rfl

/-- Settles O21: both operations latch and return the same from either buffer, and leave FB as they found it. -/
theorem unreadSymbolsCannotMatter : Obligations.UnreadSymbolsCannotMatter := by
  intro s t fb' n hreads
  have hn : n.toNat ≤ 64 := by rcases hreads with ⟨rfl, _⟩ | ⟨rfl, _⟩ <;> decide
  have hsame : SameWhereRead (classifyCount n.toNat) s.fb fb' := by
    rcases hreads with ⟨rfl, h⟩ | ⟨rfl, h⟩ <;> exact h
  have hvalue := decodeAnyFrame_congr s.cfg.variant hsame
  have hlatch := latchDecode_withFb hsame
  constructor
  · intro h
    rw [exec_decodeFrame_of_le hn, Host.Outcome.next.injEq] at h
    change exec (.decodeFrame n) (s.withFb fb') = .next (t.withFb fb')
    rw [exec_decodeFrame_of_le hn, hlatch, State.withFb_fb, State.withFb_cfg, ← hvalue, ← h]
    rfl
  · rintro rfl h
    have hfsm : s.fsm = .decode := (execRunDecode_next h).1
    rw [exec_runDecode hfsm, Host.Outcome.next.injEq] at h
    change exec .runDecode (s.withFb fb') = .next (t.withFb fb')
    rw [exec_runDecode (s := s.withFb fb') hfsm, State.withFb_fbCount, hlatch, State.withFb_fb, State.withFb_cfg,
      ← hvalue, concludeDecode_withFb, h]

end Sys2Proof.Machine
end

section
/-! PROOFS. The codeset resolver (42_codeset_resolver.md R160, R161, R163): what each operation answers, the key as a
number, the hit of a look-up when keys may be equal, then the statements. -/

namespace Sys2Proof.Machine

/-! ### What the operations answer -/

theorem exec_key (e : BitVec 16) (s : State) : exec (.key e) s = .next (s.setRet (.byte (keyOf e))) := rfl

theorem exec_resolve (c : BitVec 8) (s : State) :
    exec (.resolve c) s = .next (s.setRet (.command (resolveCommand s.csActive c))) := rfl

theorem exec_codesetOk (idx : Nat) (s : State) :
    exec (.codesetOk idx) s = .next (s.setRet (.bool (codesetIsOk s.rom idx))) := rfl

/-! ### The key and the look-up -/

/-- R160: the eight bits above bit 8 are all that the division leaves of a 16-bit entry. -/
theorem keyOf_toNat (e : BitVec 16) : (keyOf e).toNat = e.toNat / 256 := by
  have hlt : e.toNat < 2 ^ 16 := e.isLt
  rw [keyOf, BitVec.extractLsb'_toNat, Nat.shiftRight_eq_div_pow]
  omega

theorem mem_allCommands (k : Command) : k ∈ allCommands := by
  cases k <;> decide

theorem keyOf_entryOf_of_resolveCommand {cs : Codeset} {c : BitVec 8} {k : Command}
    (h : resolveCommand cs c = some k) : keyOf (entryOf cs k) = c :=
  beq_iff_eq.1 (List.find?_some (p := fun k => keyOf (entryOf cs k) == c) h)

theorem resolveCommand_eq_none_iff (cs : Codeset) (c : BitVec 8) :
    resolveCommand cs c = none ↔ ∀ k, keyOf (entryOf cs k) ≠ c := by
  refine ⟨fun h k hk => ?_, resolveCommand_none⟩
  rw [resolveCommand, List.find?_eq_none] at h
  exact h k (mem_allCommands k) (beq_iff_eq.2 hk)

/-- With equal keys the look-up still hits; the lemma names no winner among them (U1). -/
theorem exists_resolveCommand_of_key {cs : Codeset} {c : BitVec 8} (h : ∃ k, keyOf (entryOf cs k) = c) :
    ∃ k, keyOf (entryOf cs k) = c ∧ resolveCommand cs c = some k := by
  obtain ⟨j, hj⟩ := h
  cases hr : resolveCommand cs c with
  | none => exact absurd hj ((resolveCommand_eq_none_iff cs c).1 hr j)
  | some k => exact ⟨k, keyOf_entryOf_of_resolveCommand hr, rfl⟩

/-! ### The statements -/

/-- Settles O24: KEY returns `keyOf` of the entry, whose value is the entry's high byte. -/
theorem keyIsTheHighByte : Obligations.KeyIsTheHighByte :=
  fun e s => ⟨exec_key e s, keyOf_toNat e⟩

/-- Settles O25: RESOLVE returns the look-up in CS_ACTIVE, which hits the only Command with the key, misses where there is
none, and hits one of several. -/
theorem resolveFindsTheKey : Obligations.ResolveFindsTheKey := by
  intro s c
  refine ⟨fun k hk honly => ?one, fun hnone => ?none, fun hsome => ?some⟩
  case one => rw [exec_resolve, resolveCommand_of_key hk honly, State.setRet]
  case none => rw [exec_resolve, resolveCommand_none hnone, State.setRet]
  case some =>
    obtain ⟨k, hk, hr⟩ := exists_resolveCommand_of_key hsome
    exact ⟨k, hk, by rw [exec_resolve, hr, State.setRet]⟩

/-- Settles O26: CODESET_OK returns the check of the row, known by its three conditions. -/
theorem codesetCheckConditions : Obligations.CodesetCheckConditions :=
  fun s idx => ⟨_, exec_codesetOk idx s, codesetIsOk_iff s.rom idx⟩

end Sys2Proof.Machine
end

section
/-! PROOFS. The queue (43_dispatch_fifo.md R174, R176, R183): the two completions of a push as chains of conditions, the
pointers' difference, what a completed push leaves in the queue and its storage; then the statements. -/

namespace Sys2Proof.Machine

/-! ### The completions of a push as chains of conditions -/

theorem exec_pushOk (c : Command) (s : State) :
    exec (.pushOk (commandCode c)) s = require (s.pushInProgress c) .noPushInProgress
      (require (decide (s.q.length < 16)) .queueFull (.next ((s.enqueue c).setRet (.bool true)))) := by
  rw [exec, execPushOk, commandOfCode_commandCode]

theorem exec_pushTimeout (c : Command) (s : State) :
    exec (.pushTimeout (commandCode c)) s = require (s.pushInProgress c) .noPushInProgress
      (require s.qFull .queueNotFull (.next (s.failPush.setRet (.bool false)))) := by
  rw [exec, execPushTimeout, commandOfCode_commandCode]

theorem exec_pushOk_of_reserved {x : BitVec 3} (h : 6 ≤ x.toNat) (s : State) :
    exec (.pushOk x) s = .refused .reservedCommandCode := by
  rw [exec, execPushOk, commandOfCode_eq_none x h]

theorem exec_pushTimeout_of_reserved {x : BitVec 3} (h : 6 ≤ x.toNat) (s : State) :
    exec (.pushTimeout x) s = .refused .reservedCommandCode := by
  rw [exec, execPushTimeout, commandOfCode_eq_none x h]

theorem pushInProgress_eq_false {c : Command} {s : State} (h : s.fsm ≠ .push ∨ c ≠ s.pendCmd) :
    s.pushInProgress c = false := by
  rw [Bool.eq_false_iff, ne_eq, pushInProgress_iff, not_and_or]
  exact h

/-- Q_FULL (10_state.md R27). -/
theorem qFull_iff (s : State) : s.qFull = true ↔ s.q.length = 16 :=
  decide_eq_true_iff

theorem qFull_eq_false_of_room {s : State} (h : s.q.length < 16) : s.qFull = false :=
  decide_eq_false h.ne

/-- Settles O27: the push in progress is asked for first, then the room, which lets exactly one of the two complete. -/
theorem pushAppendsOrFails : Obligations.PushAppendsOrFails := by
  intro s c
  refine ⟨fun hfsm hc => ?inProgress, fun hnone => ?noPush, fun x hx => ?reserved⟩
  case inProgress =>
    have hpush : s.pushInProgress c = true := (pushInProgress_iff c s).2 ⟨hfsm, hc⟩
    rw [exec_pushOk, exec_pushTimeout, hpush, require_true, require_true]
    constructor
    · intro hroom
      rw [decide_eq_true hroom, qFull_eq_false_of_room hroom]
      exact ⟨rfl, rfl⟩
    · intro hfull
      rw [decide_eq_false hfull.not_lt, (qFull_iff s).2 hfull]
      exact ⟨rfl, rfl⟩
  case noPush =>
    rw [exec_pushOk, exec_pushTimeout, pushInProgress_eq_false hnone]
    exact ⟨rfl, rfl⟩
  case reserved => exact ⟨exec_pushOk_of_reserved hx s, exec_pushTimeout_of_reserved hx s⟩

/-! ### The pointers (R183) -/

/-- The pointers differ by the number of entries, modulo 2 * FIFO_DEPTH. -/
theorem wrPtr_sub_rdPtr (s : State) : s.wrPtr - s.rdPtr = BitVec.ofNat 5 s.q.length := by
  rw [State.wrPtr, add_sub_cancel_left]

theorem wrPtr_sub_rdPtr_toNat {s : State} (h : s.q.length ≤ 16) : (s.wrPtr - s.rdPtr).toNat = s.q.length := by
  rw [wrPtr_sub_rdPtr, BitVec.toNat_ofNat]
  omega

theorem wrPtr_eq_rdPtr_iff {s : State} (h : s.q.length ≤ 16) : s.wrPtr = s.rdPtr ↔ s.q = [] := by
  refine ⟨fun heq => ?_, wrPtr_eq_rdPtr_of_q_nil⟩
  rw [← List.length_eq_zero_iff, ← wrPtr_sub_rdPtr_toNat h, heq, sub_self]
  rfl

theorem wrPtr_sub_rdPtr_eq_16_iff {s : State} (h : s.q.length ≤ 16) :
    s.wrPtr - s.rdPtr = 16 ↔ s.qFull = true := by
  rw [qFull_iff, ← BitVec.toNat_inj, wrPtr_sub_rdPtr_toNat h]
  rfl

theorem wrPtr_congr {s t : State} (hq : t.q = s.q) (hr : t.rdPtr = s.rdPtr) : t.wrPtr = s.wrPtr := by
  rw [State.wrPtr, State.wrPtr, hq, hr]

/-- An entry more moves WR_PTR by one. -/
theorem wrPtr_enqueue (s : State) (c : Command) : (s.enqueue c).wrPtr = s.wrPtr + 1 := by
  rw [State.wrPtr, State.wrPtr, State.enqueue_rdPtr, State.enqueue_q, List.length_append, List.length_singleton,
    BitVec.ofNat_add, add_assoc]
  rfl

/-- An entry less moves RD_PTR by one, and WR_PTR stays. -/
theorem wrPtr_dequeue {s : State} {c : Command} {rest : List Command} (hq : s.q = c :: rest) :
    (s.dequeue c rest).wrPtr = s.wrPtr := by
  rw [State.wrPtr, State.wrPtr, State.dequeue_rdPtr, State.dequeue_q, hq, List.length_cons, BitVec.ofNat_add,
    add_assoc, add_comm 1]
  rfl

/-! ### The storage (R183) -/

/-- A word's index counts modulo FIFO_DEPTH already. -/
theorem qmemWord_mod (s : State) (k : Nat) : s.qmemWord (k % 16) = s.qmemWord k := by
  rw [State.qmemWord, State.qmemWord, Nat.mod_mod]

theorem qmemWord_congr {s t : State} (hm : t.qmem = s.qmem) (k : Nat) : t.qmemWord k = s.qmemWord k := by
  rw [State.qmemWord, State.qmemWord, hm]

/-- The relation of Q and QMEM with the index reduced. -/
theorem qmemAgrees_iff (s : State) :
    s.qmemAgrees ↔
      ∀ j < s.q.length, (s.q[j]?).map commandCode = some (s.qmemWord ((s.rdPtr.toNat + j) % 16)) := by
  simp only [qmemWord_mod, State.qmemAgrees]

/-- The word a push writes reads back as the code it wrote. -/
theorem qmemWord_enqueue (s : State) (c : Command) :
    (s.enqueue c).qmemWord (s.wrPtr.toNat % 16) = commandCode c := by
  have hlt : s.wrPtr.toNat % 16 < 16 := Nat.mod_lt _ (by decide)
  rw [qmemWord_mod, State.qmemWord, State.enqueue_qmem, Vector.getElem?_setIfInBounds_self, if_pos hlt,
    Option.getD_some]

/-- The word at RD_PTR is the head's. -/
theorem qmemWord_rdPtr {s : State} {c : Command} {rest : List Command} (hq : s.q = c :: rest) (h : s.qmemAgrees) :
    s.qmemWord s.rdPtr.toNat = commandCode c := by
  have hhead := h 0 (by simp [hq])
  simpa [hq] using hhead.symm

/-! ### What a completed push and a completed pop leave -/

theorem commandCode_injective : Function.Injective commandCode := by
  intro c d h
  rw [← Option.some_inj, ← commandOfCode_commandCode, h, commandOfCode_commandCode]

/-- PUSH_OK and RUN_PUSH with room leave the same in the queue, its storage and its pointers: what `enqueue` leaves. -/
theorem exec_push_next {i : Instr} {c : Command} {s t : State} (h : exec i s = .next t)
    (hi : i = .pushOk (commandCode c) ∨ (i = .runPush ∧ c = s.pendCmd ∧ s.q.length < 16)) :
    s.q.length < 16 ∧ t.q = (s.enqueue c).q ∧ t.qmem = (s.enqueue c).qmem ∧ t.rdPtr = (s.enqueue c).rdPtr := by
  rcases hi with rfl | ⟨rfl, rfl, hroom⟩
  · obtain ⟨-, hcode, hroom, rfl⟩ := execPushOk_next h
    obtain rfl := commandCode_injective hcode
    exact ⟨hroom, rfl, rfl, rfl⟩
  · obtain ⟨-, ⟨-, rfl⟩ | ⟨hfull, -⟩⟩ := execRunPush_next h
    · exact ⟨hroom, rfl, rfl, rfl⟩
    · exact absurd hfull hroom.ne

/-- Settles O29: the pointers differ by the length of Q; a push leaves what `enqueue` leaves, a pop what `dequeue` leaves,
and both keep the relation of Q and QMEM. -/
theorem pointersRefineTheQueue : Obligations.PointersRefineTheQueue := by
  intro s hlen
  refine ⟨wrPtr_sub_rdPtr_toNat hlen, wrPtr_eq_rdPtr_iff hlen, wrPtr_sub_rdPtr_eq_16_iff hlen, fun hstore => ?_⟩
  have hagrees : s.qmemAgrees := (qmemAgrees_iff s).2 hstore
  refine ⟨fun i c t hi hexec => ?push, fun t hexec => ?pop⟩
  case push =>
    obtain ⟨hroom, hq, hm, hr⟩ := exec_push_next hexec hi
    have hkeeps : t.qmemAgrees := qmemAgrees_congr hq hm hr (qmemAgrees_enqueue c hroom hagrees)
    exact ⟨(wrPtr_congr hq hr).trans (wrPtr_enqueue s c), hr, hm, (qmemWord_congr hm _).trans (qmemWord_enqueue s c),
      (qmemAgrees_iff t).1 hkeeps⟩
  case pop =>
    obtain ⟨c, rest, hq, rfl⟩ := execPopOk_next hexec
    have hhead : some (commandCode c) = some (s.qmemWord (s.rdPtr.toNat % 16)) := by
      rw [qmemWord_mod, qmemWord_rdPtr hq hagrees]
    have hkeeps : (s.dequeue c rest).qmemAgrees := qmemAgrees_dequeue hq hagrees
    exact ⟨rfl, wrPtr_dequeue hq, rfl, hhead, (qmemAgrees_iff _).1 hkeeps⟩

end Sys2Proof.Machine
end

section
/-! PROOFS. The decode loop (44_decode_loop.md R200, R202 to R208): what each operation answers where FSM selects it, then
the statements. -/

namespace Sys2Proof.Machine

/-! ### INIT (R200) -/

/-- The row INIT copies is the row CODESET_OK read. -/
theorem romEntries_of_getElem? {rom : List Config.CodesetRow} {idx : Nat} {row : Config.CodesetRow}
    (h : rom[idx]? = some row) : romEntries rom idx = row.entries := by
  rw [romEntries, h]

theorem codesetIsOk_of_legalRow {rom : List Config.CodesetRow} {idx : Nat} {row : Config.CodesetRow}
    (hrow : rom[idx]? = some row) (hlegal : LegalRow row) : codesetIsOk rom idx = true :=
  (codesetIsOk_iff rom idx).2 ⟨row, hrow, hlegal⟩

theorem codesetIsOk_of_no_legalRow {rom : List Config.CodesetRow} {idx : Nat}
    (h : ∀ row, rom[idx]? = some row → ¬ LegalRow row) : codesetIsOk rom idx = false := by
  rw [Bool.eq_false_iff, ne_eq, codesetIsOk_iff]
  rintro ⟨row, hrow, hlegal⟩
  exact h row hrow hlegal

theorem exec_init_of_ok {s : State} (hfsm : s.fsm = .init) (hok : codesetIsOk s.rom s.ports.codesetIdx = true)
    (hslot : s.slot = .idle) : exec .init s = .next s.initSucceeds := by
  rw [exec, execInit, decide_eq_true hfsm, require_true, if_pos hok, decide_eq_true hslot, require_true]

theorem exec_init_of_not_ok {s : State} (hfsm : s.fsm = .init)
    (hok : codesetIsOk s.rom s.ports.codesetIdx = false) : exec .init s = .next s.initFails := by
  rw [exec, execInit, decide_eq_true hfsm, require_true, hok, if_neg Bool.false_ne_true]

/-- Settles O32: the check of the selected row decides, and the row it read is the row that is copied. -/
theorem initStartsOrHalts : Obligations.InitStartsOrHalts := by
  intro s hfsm
  constructor
  · intro row hrow hlegal hslot
    rw [exec_init_of_ok hfsm (codesetIsOk_of_legalRow hrow hlegal) hslot, State.initSucceeds,
      romEntries_of_getElem? hrow]
    rfl
  · intro hnone
    rw [exec_init_of_not_ok hfsm (codesetIsOk_of_no_legalRow hnone)]
    rfl

/-! ### S_WAIT (R202, R203) -/

theorem exec_takeFrame {s : State} (hfsm : s.fsm = .wait) (hslot : s.slot = .full) :
    exec .takeFrame s = .next { s with fsm := .decode } := by
  rw [exec, execTakeFrame, decide_eq_true hfsm, require_true, decide_eq_true hslot, require_true]

/-- In S_WAIT only SLOT decides whether WAIT_EXPIRE is enabled. -/
theorem exec_waitExpire {s : State} (hfsm : s.fsm = .wait) :
    exec .waitExpire s = require (decide (s.slot = .armed)) .slotNotArmed
      (.next ({ s with waitTmr := s.cfg.captureWait }.raise .captureTimeout)) := by
  rw [exec, execWaitExpire, decide_eq_true hfsm, require_true]

/-- CAPTURE_TIMEOUT leaves FSM where it is and reports no result and no Command (60_exceptions.md R230). -/
theorem raise_captureTimeout (s : State) :
    s.raise .captureTimeout = { s with
      lastOutcome := .captureTimeout, outcStrobe := true,
      trace := s.trace ++ [.outcome .captureTimeout none none] } := rfl

/-- Settles O34: SLOT FULL enables TAKE_FRAME alone, SLOT ARMED enables WAIT_EXPIRE. -/
theorem waitTakesOrExpires : Obligations.WaitTakesOrExpires := by
  intro s hfsm
  rw [exec_waitExpire hfsm]
  refine ⟨fun hfull => exec_takeFrame hfsm hfull, fun harmed => ?expires, fun hfull => ?refused⟩
  case expires => rw [decide_eq_true harmed, require_true, raise_captureTimeout]
  case refused =>
    have hslot : s.slot ≠ .armed := by simp [hfull]
    rw [decide_eq_false hslot, require_false]

/-! ### RUN_DECODE (R204) -/

/-- Settles O35: RUN_DECODE latches the private registers as DECODE does, returns nothing, and concludes with the result
that DECODE returns. -/
theorem runDecodeConcludes : Obligations.RunDecodeConcludes := by
  intro s d r hfsm hcount hdecode hret
  refine ⟨?_, sameButScan_of_exec rfl hdecode⟩
  rw [exec_decodeFrame_of_le hcount, Host.Outcome.next.injEq] at hdecode
  subst hdecode
  have hr : decodeAnyFrame s.fbCount.toNat s.fb s.cfg.variant = r := Ret.decoded.inj hret
  obtain ⟨a, w, i, hlatch⟩ := latchDecode_frame s.fbCount.toNat s
  rw [exec_runDecode hfsm, hr, hlatch]
  cases r <;> rfl

/-! ### RUN_RESOLVE (R205) -/

theorem exec_runResolve_of_some {s : State} {k : Command} (hfsm : s.fsm = .resolve)
    (h : resolveCommand s.csActive s.resCmd = some k) : exec .runResolve s = .next (s.lookupHits k) := by
  rw [exec, execRunResolve, decide_eq_true hfsm, require_true, h]

theorem exec_runResolve_of_none {s : State} (hfsm : s.fsm = .resolve)
    (h : resolveCommand s.csActive s.resCmd = none) : exec .runResolve s = .next (s.raise .resolveMiss) := by
  rw [exec, execRunResolve, decide_eq_true hfsm, require_true, h]

/-- Settles O37: the look-up of RES_CMD in CS_ACTIVE decides; it hits the only Command with the key, misses where there is
none, and hits one of several. -/
theorem runResolveHitsOrMisses : Obligations.RunResolveHitsOrMisses := by
  intro s hfsm
  refine ⟨fun k hk honly => ?one, fun hnone => ?none, fun hsome => ?some⟩
  case one => exact exec_runResolve_of_some hfsm (resolveCommand_of_key hk honly)
  case none => exact exec_runResolve_of_none hfsm (resolveCommand_none hnone)
  case some =>
    obtain ⟨k, hk, hr⟩ := exists_resolveCommand_of_key hsome
    exact ⟨k, hk, exec_runResolve_of_some hfsm hr⟩

/-! ### RUN_PUSH (R206) -/

theorem exec_runPush_of_room {s : State} (hfsm : s.fsm = .push) (hroom : s.q.length < 16) :
    exec .runPush s = .next ((s.enqueue s.pendCmd).raise .dispatched) := by
  rw [exec, execRunPush, decide_eq_true hfsm, require_true, if_pos hroom]

theorem exec_runPush_of_full {s : State} (hfsm : s.fsm = .push) (hfull : s.q.length = 16) :
    exec .runPush s = .next (s.failPush.raise .dispatchTimeout) := by
  rw [exec, execRunPush, decide_eq_true hfsm, require_true, if_neg hfull.not_lt, (qFull_iff s).2 hfull, require_true]

/-- Settles O38: the room decides which of the two completions of the push runs, and each adds its own event before the
outcome's. -/
theorem runPushDispatchesOrTimesOut : Obligations.RunPushDispatchesOrTimesOut := by
  intro s hfsm
  constructor
  · intro hroom
    rw [exec_runPush_of_room hfsm hroom, List.append_cons s.trace]
    rfl
  · intro hfull
    rw [exec_runPush_of_full hfsm hfull, List.append_cons s.trace]
    rfl

/-! ### REARM and HALTED (R207, R208) -/

theorem exec_rearm {s : State} (hfsm : s.fsm = .rearm) : exec .rearm s = .next s.returnFromOutcome := by
  rw [exec, execRearm, decide_eq_true hfsm, require_true]

theorem exec_halted {s : State} (hfsm : s.fsm = .halt) : exec .halted s = .next s := by
  rw [exec, execHalted, decide_eq_true hfsm, require_true]

/-- Settles O39: REARM is the return from an outcome, which arms the capture and enters S_WAIT; HALTED is the identity. -/
theorem rearmReturnsAndHaltedStays : Obligations.RearmReturnsAndHaltedStays :=
  fun _ => ⟨fun hrearm => exec_rearm hrearm, fun hhalt => exec_halted hhalt⟩

end Sys2Proof.Machine
end

section
/-! PROOFS. What an operation can do, said once: `Effect s i t` lists the next states that operation `i` can answer in
state `s`, each with what enabled it. The statements about every operation are case analyses over it. -/

namespace Sys2Proof.Machine

/-- The next states an operation can answer, one constructor per way it can end. -/
inductive Effect (s : State) : Instr → State → Prop
  /-- families 1 to 3 and the word formats: a returned value and the registers no later step reads -/
  | returns {i : Instr} (hpure : isPure i = true) (r : Ret) (a w : BitVec 16) (x : BitVec 7) :
      Effect s i { s with ret := r, addrSr := a, wordSr := w, symIdx := x }
  | pushOk (hfsm : s.fsm = .push) (hroom : s.q.length < 16) :
      Effect s (.pushOk (commandCode s.pendCmd)) ((s.enqueue s.pendCmd).setRet (.bool true))
  | pushTimeout (hfsm : s.fsm = .push) (hfull : s.q.length = 16) :
      Effect s (.pushTimeout (commandCode s.pendCmd)) (s.failPush.setRet (.bool false))
  | popOk {c : Command} {rest : List Command} (hq : s.q = c :: rest) :
      Effect s .popOk ((s.dequeue c rest).setRet (.command (some c)))
  | popEmpty (hq : s.q = []) : Effect s .popEmpty (s.endEmptyPop.setRet (.command none))
  | initSucceeds (hfsm : s.fsm = .init) (hok : codesetIsOk s.rom s.ports.codesetIdx = true) (hslot : s.slot = .idle) :
      Effect s .init s.initSucceeds
  | initFails (hfsm : s.fsm = .init) : Effect s .init s.initFails
  | arm (hfsm : s.fsm = .init) : Effect s .arm s.armCapture
  | deliver {f : List SymWord} (hlen : f.length ≤ 64) (hslot : s.slot = .armed) :
      Effect s (.captureDeliver f) (s.deliver f)
  | takeFrame (hfsm : s.fsm = .wait) (hslot : s.slot = .full) : Effect s .takeFrame { s with fsm := .decode }
  | waitExpire (hfsm : s.fsm = .wait) (hslot : s.slot = .armed) :
      Effect s .waitExpire (State.raise .captureTimeout { s with waitTmr := s.cfg.captureWait })
  | decodes {a : BitVec 16} {c : BitVec 8} (hfsm : s.fsm = .decode)
      (hres : decodeAnyFrame s.fbCount.toNat s.fb s.cfg.variant = .normal a c) (sa sw : BitVec 16) (x : BitVec 7) :
      Effect s .runDecode
        { s with addrSr := sa, wordSr := sw, symIdx := x, resAddr := a, resCmd := c, fsm := .resolve }
  | decodeEnds {o : OutcomeCode} (hfsm : s.fsm = .decode)
      (ho : o = .repeatIgnored ∨ o = .errUnsupportedLength ∨ o = .errBitMismatch ∨ o = .errChecksumFailed)
      (sa sw : BitVec 16) (x : BitVec 7) :
      Effect s .runDecode (State.raise o { s with addrSr := sa, wordSr := sw, symIdx := x })
  | resolves (hfsm : s.fsm = .resolve) (k : Command) : Effect s .runResolve (s.lookupHits k)
  | misses (hfsm : s.fsm = .resolve) : Effect s .runResolve (s.raise .resolveMiss)
  | dispatches (hfsm : s.fsm = .push) (hroom : s.q.length < 16) :
      Effect s .runPush ((s.enqueue s.pendCmd).raise .dispatched)
  | timesOut (hfsm : s.fsm = .push) (hfull : s.q.length = 16) : Effect s .runPush (s.failPush.raise .dispatchTimeout)
  | rearm (hfsm : s.fsm = .rearm) : Effect s .rearm s.returnFromOutcome
  | halted (hfsm : s.fsm = .halt) : Effect s .halted s

/-- An operation that answers a next state had one of its effects. -/
theorem effect_of_exec {i : Instr} {s t : State} (h : exec i s = .next t) : Effect s i t := by
  have returns : isPure i = true → Effect s i t := by
    intro hi
    obtain ⟨r, a, w, x, rfl⟩ := exec_pure_next hi h
    exact .returns hi r a w x
  cases i with
  | pushOk x =>
    obtain ⟨hfsm, rfl, hroom, rfl⟩ := execPushOk_next h
    exact .pushOk hfsm hroom
  | pushTimeout x =>
    obtain ⟨hfsm, rfl, hfull, rfl⟩ := execPushTimeout_next h
    exact .pushTimeout hfsm hfull
  | popOk =>
    obtain ⟨c, rest, hq, rfl⟩ := execPopOk_next h
    exact .popOk hq
  | popEmpty =>
    obtain ⟨hq, rfl⟩ := execPopEmpty_next h
    exact .popEmpty hq
  | init =>
    obtain ⟨hfsm, ⟨hok, hslot, rfl⟩ | ⟨-, rfl⟩⟩ := execInit_next h
    · exact .initSucceeds hfsm hok hslot
    · exact .initFails hfsm
  | arm =>
    obtain ⟨hfsm, -, -, rfl⟩ := execArm_next h
    exact .arm hfsm
  | captureDeliver f =>
    obtain ⟨hlen, hslot, rfl⟩ := execCaptureDeliver_next h
    exact .deliver hlen hslot
  | takeFrame =>
    obtain ⟨hfsm, hslot, rfl⟩ := execTakeFrame_next h
    exact .takeFrame hfsm hslot
  | waitExpire =>
    obtain ⟨hfsm, hslot, rfl⟩ := execWaitExpire_next h
    exact .waitExpire hfsm hslot
  | runDecode =>
    obtain ⟨hfsm, u, ⟨sa, sw, x, rfl⟩, ⟨a, c, hres, rfl⟩ | ⟨o, ho, rfl⟩⟩ := execRunDecode_next h
    · exact .decodes hfsm hres sa sw x
    · exact .decodeEnds hfsm ho sa sw x
  | runResolve =>
    obtain ⟨hfsm, ⟨k, -, rfl⟩ | rfl⟩ := execRunResolve_next h
    · exact .resolves hfsm k
    · exact .misses hfsm
  | runPush =>
    obtain ⟨hfsm, ⟨hroom, rfl⟩ | ⟨hfull, rfl⟩⟩ := execRunPush_next h
    · exact .dispatches hfsm hroom
    · exact .timesOut hfsm hfull
  | rearm =>
    obtain ⟨hfsm, rfl⟩ := execRearm_next h
    exact .rearm hfsm
  | halted =>
    obtain ⟨hfsm, rfl⟩ := execHalted_next h
    exact .halted hfsm
  | inWin _ _ | matchSym _ _ _ | matchLead _ | matchRpt _ | matchZero _ | matchOne _ | classifyBit _ | classifyLength _
  | decodeFrame _ | decodeNormal | assemble16 _ | checksum _ | decodeRepeat | key _ | resolve _ | codesetOk _
  | symbolWord _ | codesetEntry _ | rawCommandWord _ | commandCode _ | outcomeCode _ => exact returns rfl

/-! ### What every step keeps -/

/-- What a step changes beside the effect of its operation: the timers, the pop in progress, the pulses, the ports and the
inputs that are left. -/
def SameButTurns (s t : State) : Prop :=
  ∃ wt pt ot b ca os pp p ins, t = { s with
    waitTmr := wt, pushTmr := pt, popTmr := ot, popBusy := b, capArm := ca, outcStrobe := os, popPort := pp,
    ports := p, inputs := ins }

theorem sameButTurns_begin (s : State) (rest : List Input) : SameButTurns s { s.clearPulses with inputs := rest } :=
  ⟨_, _, _, _, _, _, _, _, _, rfl⟩

/-- A step runs one operation that is a step of its own on the state with the pulses low and the input taken, or resets
both sides there, or changes nothing beside the turns. -/
theorem step_cases {s t : State} (h : step s = .next t) :
    (∃ i rest, enclosingStep i = none ∧ exec i { s.clearPulses with inputs := rest } = .next t) ∨
      SameButTurns s t ∨
      ∃ rest, s.inputs = .reset true true :: rest ∧ t = { s.clearPulses with inputs := rest }.applyReset := by
  obtain ⟨u, rest, rfl, h⟩ := step_next h
  rcases h with ⟨i, he, hi⟩ | ⟨-, rfl⟩ | rfl | rfl | ⟨_, rfl⟩ | ⟨_, rfl⟩ | ⟨_, rfl⟩ | ⟨hin, rfl⟩
  · exact .inl ⟨i, rest, hi, he⟩
  · refine .inr (.inl ?_)
    unfold State.decoderTick
    split
    · exact ⟨_, _, _, _, _, _, _, _, _, rfl⟩
    · exact ⟨_, _, _, _, _, _, _, _, _, rfl⟩
  iterate 5 exact .inr (.inl ⟨_, _, _, _, _, _, _, _, _, rfl⟩)
  · exact .inr (.inr ⟨rest, hin, rfl⟩)

/-- A predicate that no turn touches, that the operations that are steps of their own keep and that holds after a reset is
kept by every step. -/
theorem step_keeps {P : State → Prop} (hturns : ∀ {s t}, SameButTurns s t → P s → P t)
    (hexec : ∀ {i s t}, enclosingStep i = none → Effect s i t → P s → P t) (hreset : ∀ {s}, P s → P s.applyReset)
    {s t : State} (hs : P s) (h : step s = .next t) : P t := by
  have hbegin : ∀ rest, P { s.clearPulses with inputs := rest } := fun rest => hturns (sameButTurns_begin s rest) hs
  rcases step_cases h with ⟨i, rest, hi, he⟩ | ht | ⟨rest, -, rfl⟩
  · exact hexec hi (effect_of_exec he) (hbegin rest)
  · exact hturns ht hs
  · exact hreset (hbegin rest)

end Sys2Proof.Machine
end

section
/-! PROOFS. The orders of the trace that no invariant is needed for: the queue (43_dispatch_fifo.md R179), the last outcome
(10_state.md R31), and where Q changes at all (10_state.md R44 f). -/

namespace Sys2Proof.Machine

/-! ### What one more event adds -/

@[simp] theorem pushedOf_append (t : List Event) (e : Event) :
    pushedOf (t ++ [e]) = pushedOf t ++ (match e with | .pushed c => [c] | _ => []) := by
  rw [pushedOf, List.filterMap_append]
  cases e <;> rfl

@[simp] theorem poppedOf_append (t : List Event) (e : Event) :
    poppedOf (t ++ [e]) = poppedOf t ++ (match e with | .popped c => [c] | _ => []) := by
  rw [poppedOf, List.filterMap_append]
  cases e <;> rfl

@[simp] theorem lastOutcomeOf_append (t : List Event) (e : Event) :
    lastOutcomeOf (t ++ [e]) = (match e with | .outcome c _ _ => c | _ => lastOutcomeOf t) := by
  rw [lastOutcomeOf, List.foldl_append]
  cases e <;> rfl

@[simp] theorem cycleOfTrace_append (t : List Event) (e : Event) :
    cycleOfTrace (t ++ [e]) = cycleNext (cycleOfTrace t) e := by
  rw [cycleOfTrace, List.foldl_append]
  rfl

/-! ### The order of the queue (R179) -/

theorem queueInOrder_raise {s : State} (o : OutcomeCode) (h : s.queueInOrder) : (s.raise o).queueInOrder := by
  simpa [State.queueInOrder, State.outcomeEvent] using h

theorem queueInOrder_armCapture {s : State} (h : s.queueInOrder) : s.armCapture.queueInOrder := by
  simpa [State.queueInOrder] using h

theorem queueInOrder_enqueue {s : State} (c : Command) (h : s.queueInOrder) : (s.enqueue c).queueInOrder := by
  unfold State.queueInOrder at *
  simp [h]

theorem queueInOrder_dequeue {s : State} {c : Command} {rest : List Command} (hq : s.q = c :: rest)
    (h : s.queueInOrder) : (s.dequeue c rest).queueInOrder := by
  simpa [State.queueInOrder, hq] using h

theorem queueInOrder_failPush {s : State} (h : s.queueInOrder) : s.failPush.queueInOrder := by
  simpa [State.queueInOrder] using h

/-- R179 over one operation: an event PUSHED comes with an append, an event POPPED with the loss of the head, and no other
effect touches Q or adds one of the two. -/
theorem queueInOrder_effect {i : Instr} {s t : State} (he : Effect s i t) (h : s.queueInOrder) : t.queueInOrder := by
  cases he with
  | pushOk => exact queueInOrder_enqueue _ h
  | popOk hq => exact queueInOrder_dequeue hq h
  | dispatches => exact queueInOrder_raise _ (queueInOrder_enqueue _ h)
  | timesOut => exact queueInOrder_raise _ (queueInOrder_failPush h)
  | pushTimeout => exact queueInOrder_failPush h
  | initSucceeds => exact queueInOrder_armCapture (s := { s with cfg := _, csActive := _ }) h
  | initFails => exact queueInOrder_raise (s := { s with cfg := _ }) _ h
  | arm | rearm => exact queueInOrder_armCapture h
  | waitExpire => exact queueInOrder_raise (s := { s with waitTmr := _ }) _ h
  | decodeEnds => exact queueInOrder_raise (s := { s with addrSr := _, wordSr := _, symIdx := _ }) _ h
  | misses => exact queueInOrder_raise _ h
  | popEmpty | deliver => simpa [State.queueInOrder] using h
  | returns | takeFrame | decodes | resolves | halted => exact h

/-- Settles O31: after a reset nothing has been pushed, popped or queued. -/
theorem everyStepKeepsQueueOrder : Obligations.EveryStepKeepsQueueOrder := by
  intro s t hs hstep
  refine step_keeps ?turns (fun _ he => queueInOrder_effect he) (fun _ => rfl) hs hstep
  case turns =>
    rintro s _ ⟨_, _, _, _, _, _, _, _, _, rfl⟩ h
    exact h

/-! ### The last outcome (R31) -/

/-- R31 over one operation: only an outcome raised writes LAST_OUTCOME, and it adds its event. -/
theorem lastOutcome_effect {i : Instr} {s t : State} (he : Effect s i t)
    (h : lastOutcomeOf s.trace = s.lastOutcome) : lastOutcomeOf t.trace = t.lastOutcome := by
  have raised : ∀ (u : State) (o : OutcomeCode), lastOutcomeOf (u.raise o).trace = (u.raise o).lastOutcome :=
    fun u o => by simp [State.outcomeEvent]
  cases he with
  | initFails | waitExpire | decodeEnds | misses | dispatches | timesOut => exact raised _ _
  | returns | takeFrame | decodes | resolves | halted => exact h
  | pushOk | pushTimeout | popOk | popEmpty | arm | deliver => simpa using h
  | initSucceeds => simpa [State.initSucceeds] using h
  | rearm => simpa [State.returnFromOutcome] using h

/-- Settles O50: a new trace reports nothing, and reset leaves NONE. -/
theorem lastOutcomeIsTheLastReported : Obligations.LastOutcomeIsTheLastReported := by
  intro s t hs hstep
  refine step_keeps (P := fun s => lastOutcomeOf s.trace = s.lastOutcome) ?turns (fun _ he => lastOutcome_effect he)
    (fun _ => rfl) hs hstep
  case turns =>
    rintro s _ ⟨_, _, _, _, _, _, _, _, _, rfl⟩ h
    exact h

/-! ### Where the queue changes (R44 f) -/

/-- The two completed pushes and the completed pop are the only effects that write Q. -/
theorem queue_effect {i : Instr} {s t : State} (he : Effect s i t) :
    t.q = s.q ∨
    (t.q = s.q ++ [s.pendCmd] ∧ s.q.length < 16 ∧ s.fsm = .push ∧
      (i = .runPush ∨ i = .pushOk (commandCode s.pendCmd))) ∨
    (∃ c, s.q = c :: t.q ∧ i = .popOk) := by
  cases he with
  | pushOk hfsm hroom => exact .inr (.inl ⟨rfl, hroom, hfsm, .inr rfl⟩)
  | dispatches hfsm hroom => exact .inr (.inl ⟨rfl, hroom, hfsm, .inl rfl⟩)
  | popOk hq => exact .inr (.inr ⟨_, hq, rfl⟩)
  | returns | pushTimeout | popEmpty | initSucceeds | initFails | arm | deliver | takeFrame | waitExpire | decodes
  | decodeEnds | resolves | misses | timesOut | rearm | halted => exact .inl rfl

/-- Settles O30: where each effect changes Q. -/
theorem queueChangesOnlyAtItsEnds : Obligations.QueueChangesOnlyAtItsEnds :=
  fun _ _ _ h => queue_effect (effect_of_exec h)

end Sys2Proof.Machine
end

section
/-! PROOFS. The invariant of 10_state.md section 10 and the order of the decode cycles (44_decode_loop.md R212): each kept
by every effect, so by every step, and both true after reset. -/

namespace Sys2Proof.Machine

/-! ### The parts of the invariant -/

/-- An effect keeps the spaces well-formed (R44 a): a push needs room, a delivery at most FRAME_CAP symbols. -/
theorem memory_wf_effect {i : Instr} {s t : State} (he : Effect s i t) (h : Memory.wf s = true) :
    Memory.wf t = true := by
  cases he with
  | pushOk _ hroom | dispatches _ hroom => exact memory_wf_enqueue s _ h hroom
  | popOk hq => exact memory_wf_dequeue s _ _ hq h
  | deliver hlen => exact memory_wf_deliver s _ hlen h
  | returns | pushTimeout | popEmpty | initSucceeds | initFails | arm | takeFrame | waitExpire | decodes | decodeEnds
  | resolves | misses | timesOut | rearm | halted => exact h

/-- An effect keeps Q and QMEM in agreement (R183). -/
theorem qmemAgrees_effect {i : Instr} {s t : State} (he : Effect s i t) (h : s.qmemAgrees) : t.qmemAgrees := by
  cases he with
  | pushOk _ hroom | dispatches _ hroom => exact qmemAgrees_enqueue _ hroom h
  | popOk hq => exact qmemAgrees_dequeue hq h
  | returns | pushTimeout | popEmpty | initSucceeds | initFails | arm | deliver | takeFrame | waitExpire | decodes
  | decodeEnds | resolves | misses | timesOut | rearm | halted => exact h

/-- SLOT is ARMED in S_WAIT alone (R44 c). -/
theorem fsm_of_armed {s : State} (h : slotAgrees s.fsm s.slot = true) (hslot : s.slot = .armed) : s.fsm = .wait := by
  rw [hslot] at h
  revert h
  cases s.fsm <;> decide

/-- The operations that are steps of their own keep SLOT with FSM (R44 c); the arming alone would not. -/
theorem slotAgrees_effect {i : Instr} {s t : State} (hi : enclosingStep i = none) (he : Effect s i t)
    (h : slotAgrees s.fsm s.slot = true) : slotAgrees t.fsm t.slot = true := by
  have rearms : ∀ {o : OutcomeCode} {u : State}, u.slot = .full → fsmAfter o u.fsm = .rearm →
      slotAgrees (u.raise o).fsm (u.raise o).slot = true := by
    intro o u hslot hfsm
    rw [State.raise_fsm, State.raise_slot, hslot, hfsm]
    rfl
  cases he with
  | returns | pushOk | pushTimeout | popOk | popEmpty | halted => exact h
  | initSucceeds | rearm => rfl
  | initFails hfsm =>
    rw [hfsm] at h
    exact h
  | arm => cases hi
  | deliver _ hslot =>
    rw [State.deliver_fsm, fsm_of_armed h hslot]
    rfl
  | takeFrame _ hslot =>
    simp [slotAgrees, hslot]
  | waitExpire hfsm hslot => simp [slotAgrees, fsmAfter, hslot, hfsm]
  | decodes hfsm | resolves hfsm =>
    rw [hfsm] at h
    exact h
  | decodeEnds hfsm ho =>
    rw [hfsm] at h
    exact rearms (of_decide_eq_true h) (by rcases ho with rfl | rfl | rfl | rfl <;> rfl)
  | misses hfsm | dispatches hfsm | timesOut hfsm =>
    rw [hfsm] at h
    exact rearms (of_decide_eq_true h) rfl

/-! ### The phase and the configuration -/

/-- Only INIT leaves a phase (60_exceptions.md R246). -/
theorem phase_effect {i : Instr} {s t : State} (hi : i ≠ .init) (he : Effect s i t) : t.phase = s.phase := by
  cases he with
  | returns | pushOk | pushTimeout | popOk | popEmpty | arm | deliver | halted => rfl
  | initSucceeds | initFails => exact absurd rfl hi
  | takeFrame hfsm | waitExpire hfsm | decodes hfsm | resolves hfsm | misses hfsm | dispatches hfsm | timesOut hfsm
  | rearm hfsm =>
    simp [State.phase, hfsm, fsmAfter, State.returnFromOutcome]
  | decodeEnds hfsm ho => rcases ho with rfl | rfl | rfl | rfl <;> simp [State.phase, hfsm, fsmAfter]

/-- Only INIT writes the configuration and the active codeset (10_state.md R29, R30). -/
theorem config_effect {i : Instr} {s t : State} (hi : i ≠ .init) (he : Effect s i t) :
    t.cfg = s.cfg ∧ t.csActive = s.csActive := by
  cases he with
  | initSucceeds | initFails => exact absurd rfl hi
  | returns | pushOk | pushTimeout | popOk | popEmpty | arm | deliver | takeFrame | waitExpire | decodes | decodeEnds
  | resolves | misses | dispatches | timesOut | rearm | halted => exact ⟨rfl, rfl⟩

/-- No operation writes the table or the ports. -/
theorem environment_effect {i : Instr} {s t : State} (he : Effect s i t) : t.rom = s.rom ∧ t.ports = s.ports := by
  cases he <;> exact ⟨rfl, rfl⟩

/-- R44 (e) as a condition on the RUN phase. -/
theorem codesetAgrees_iff (s : State) : s.codesetAgrees = true ↔ (s.phase = .run →
    codesetIsOk s.rom s.cfg.codesetIdx = true ∧ s.csActive = romEntries s.rom s.cfg.codesetIdx) := by
  unfold State.codesetAgrees
  cases s.phase <;> simp

/-- R208 as a condition outside the RUN phase. -/
theorem queueStarts_iff (s : State) : s.queueStarts = true ↔ (s.phase ≠ .run → s.q = []) := by
  unfold State.queueStarts
  cases s.phase <;> simp

/-- INIT makes R44 (e) true; every other effect keeps what it is about. -/
theorem codesetAgrees_effect {i : Instr} {s t : State} (he : Effect s i t) (h : s.codesetAgrees = true) :
    t.codesetAgrees = true := by
  rw [codesetAgrees_iff] at *
  by_cases hi : i = .init
  · subst hi
    cases he with
    | returns hpure => cases hpure
    | initSucceeds _ hok => exact fun _ => ⟨hok, rfl⟩
    | initFails => exact fun hrun => nomatch hrun
  · rw [phase_effect hi he, (environment_effect he).1, (config_effect hi he).1, (config_effect hi he).2]
    exact h

/-- The queue is filled in the RUN phase alone (R208). -/
theorem queueStarts_effect {i : Instr} {s t : State} (he : Effect s i t) (h : s.queueStarts = true) :
    t.queueStarts = true := by
  rw [queueStarts_iff] at *
  intro hrun
  have hbefore : s.phase ≠ .run := by
    by_cases hi : i = .init
    · subst hi
      cases he with
      | returns hpure => cases hpure
      | initSucceeds => exact absurd rfl hrun
      | initFails hfsm => simp [State.phase, hfsm]
    · rwa [phase_effect hi he] at hrun
  have hempty : s.q = [] := h hbefore
  rcases queue_effect he with hsame | ⟨-, -, hfsm, -⟩ | ⟨c, hpop, -⟩
  · rw [hsame, hempty]
  · exact absurd (by simp [State.phase, hfsm]) hbefore
  · rw [hempty] at hpop
    cases hpop

/-! ### The invariant (R44) -/

theorem inv_effect {i : Instr} {s t : State} (hi : enclosingStep i = none) (he : Effect s i t) (h : s.Inv) : t.Inv where
  memory := memory_wf_effect he h.memory
  slot := slotAgrees_effect hi he h.slot
  codeset := codesetAgrees_effect he h.codeset
  start := queueStarts_effect he h.start
  qmem := qmemAgrees_effect he h.qmem

/-- The invariant reads none of what the turns write. -/
theorem inv_turns {s t : State} (ht : SameButTurns s t) (h : s.Inv) : t.Inv := by
  obtain ⟨_, _, _, _, _, _, _, _, _, rfl⟩ := ht
  exact ⟨h.memory, h.slot, h.codeset, h.start, h.qmem⟩

/-- Of what R260 does not reset the invariant reads FB_COUNT alone, whose bound stays. -/
theorem inv_applyReset {s : State} (h : s.Inv) : s.applyReset.Inv where
  memory := (memory_wf_iff _).2 ⟨Nat.zero_le _, ((memory_wf_iff s).1 h.memory).2⟩
  slot := rfl
  codeset := rfl
  start := rfl
  qmem := fun _ hj => absurd hj (Nat.not_lt_zero _)

/-- Settles O48: no turn touches the invariant, every effect keeps its five parts, and a reset restores it. -/
theorem everyStepKeepsTheInvariant : Obligations.EveryStepKeepsTheInvariant :=
  fun _ _ hs hstep => step_keeps inv_turns inv_effect inv_applyReset hs hstep

/-! ### The order of the decode cycles (R212, R61) -/

/-- The outcome's code alone moves the cycle. -/
theorem cycleOfTrace_raise (s : State) (o : OutcomeCode) :
    cycleOfTrace (s.raise o).trace = cycleOutcome (cycleOfTrace s.trace) o := by
  rw [State.raise_trace, cycleOfTrace_append]
  rfl

/-- From S_DECODE to S_PUSH a delivered Frame waits for its outcome, whatever SLOT holds. -/
theorem cyclePhase_delivered {s : State} (h : s.fsm = .decode ∨ s.fsm = .resolve ∨ s.fsm = .push) :
    s.cyclePhase = .delivered := by
  rcases h with h | h | h <;> simp [State.cyclePhase, h]

theorem cyclePhase_reported {s : State} (h : s.fsm = .rearm) : s.cyclePhase = .reported := by
  simp [State.cyclePhase, h]

/-- An outcome that ends a cycle leaves the trace and the state at the reported outcome. -/
theorem traceInOrder_raise {s : State} {o : OutcomeCode} (hfsm : fsmAfter o s.fsm = .rearm)
    (h : cycleOutcome (cycleOfTrace s.trace) o = .reported) : (s.raise o).traceInOrder := by
  rw [State.traceInOrder, cycleOfTrace_raise, h, cyclePhase_reported hfsm]

/-- R212 over one operation that is a step of its own: it moves the cycle of the trace and that of the state alike. -/
theorem traceInOrder_effect {i : Instr} {s t : State} (hi : enclosingStep i = none) (he : Effect s i t)
    (hslot : slotAgrees s.fsm s.slot = true) (h : s.traceInOrder) : t.traceInOrder := by
  have hcycle : cycleOfTrace s.trace = s.cyclePhase := h
  cases he with
  | arm | pushOk | pushTimeout => cases hi
  | returns | halted => exact h
  | popOk | popEmpty =>
    exact (cycleOfTrace_append _ _).trans h
  | initSucceeds hfsm =>
    simp [State.traceInOrder, State.initSucceeds, hcycle, State.cyclePhase, hfsm, cycleNext]
  | initFails hfsm =>
    rw [State.traceInOrder, State.initFails, cycleOfTrace_raise, hcycle]
    simp [State.cyclePhase, hfsm, cycleOutcome, fsmAfter]
  | deliver _ harmed =>
    simp [State.traceInOrder, hcycle, State.cyclePhase, fsm_of_armed hslot harmed, harmed, cycleNext]
  | takeFrame hfsm hfull => simp [State.traceInOrder, hcycle, State.cyclePhase, hfsm, hfull]
  | waitExpire hfsm harmed =>
    rw [State.traceInOrder, cycleOfTrace_raise, hcycle]
    simp [State.cyclePhase, hfsm, harmed, cycleOutcome, fsmAfter]
  | decodes hfsm =>
    exact h.trans ((cyclePhase_delivered (.inl hfsm)).trans (cyclePhase_delivered (.inr (.inl rfl))).symm)
  | resolves hfsm =>
    exact h.trans ((cyclePhase_delivered (.inr (.inl hfsm))).trans (cyclePhase_delivered (.inr (.inr rfl))).symm)
  | decodeEnds hfsm ho =>
    rw [cyclePhase_delivered (.inl hfsm)] at hcycle
    rcases ho with rfl | rfl | rfl | rfl <;> exact traceInOrder_raise rfl (by rw [hcycle]; rfl)
  | misses hfsm =>
    rw [cyclePhase_delivered (.inr (.inl hfsm))] at hcycle
    exact traceInOrder_raise rfl (by rw [hcycle]; rfl)
  | dispatches hfsm | timesOut hfsm =>
    rw [cyclePhase_delivered (.inr (.inr hfsm))] at hcycle
    exact traceInOrder_raise rfl (by simp [hcycle, cycleNext, cycleOutcome])
  | rearm hfsm =>
    rw [cyclePhase_reported hfsm] at hcycle
    simp [State.traceInOrder, State.returnFromOutcome, hcycle, State.cyclePhase, cycleNext]

/-- Settles O49: the invariant says where SLOT stands when a Frame is delivered; a reset begins a new trace. -/
theorem everyStepKeepsEventOrder : Obligations.EveryStepKeepsEventOrder := by
  intro s t hinv horder hstep
  refine (step_keeps (P := fun s => s.Inv ∧ s.traceInOrder) ?turns ?exec ?reset ⟨hinv, horder⟩ hstep).2
  case turns =>
    rintro s t ht ⟨hinv, horder⟩
    refine ⟨inv_turns ht hinv, ?_⟩
    obtain ⟨_, _, _, _, _, _, _, _, _, rfl⟩ := ht
    exact horder
  case exec => exact fun hi he h => ⟨inv_effect hi he h.1, traceInOrder_effect hi he h.1.slot h.2⟩
  case reset => exact fun h => ⟨inv_applyReset h.1, rfl⟩

/-- Settles O3: after reset every register the three predicates read is at its value of R45, and the trace is empty. -/
theorem resetStateIsSafe : Obligations.ResetStateIsSafe :=
  ⟨⟨memory_wf_reset, rfl, rfl, rfl, fun _ hj => absurd hj (Nat.not_lt_zero _)⟩, rfl, rfl⟩

end Sys2Proof.Machine
end

section
/-! PROOFS. The operation words (30_encoding.md R95, log entry 4): for each way the decoder reads a word, exactly which words
it accepts; then the two directions of the round trip. -/

namespace Sys2Proof.Machine

/-! ### Codes and fields of an operand -/

theorem nominalOfCode_eq_some_iff (c : BitVec 3) (n : Nominal) : nominalOfCode c = some n ↔ nominalCode n = c := by
  cases n <;> (revert c; decide)

theorem operandFits_iff (w : BitVec 56) (n : Nat) : operandFits w n = true ↔ w.toNat < 2 ^ n :=
  decide_eq_true_iff

/-- The low bits of a widened value are the value. -/
theorem operandField_setWidth {n : Nat} (hn : n ≤ 56) (x : BitVec n) : operandField (x.setWidth 56) 0 n = x := by
  rw [operandField, BitVec.extractLsb'_setWidth_of_le (by omega), BitVec.extractLsb'_eq_self]

theorem operandFits_setWidth {n : Nat} (hn : n ≤ 56) (x : BitVec n) : operandFits (x.setWidth 56) n = true := by
  rw [operandFits_iff, BitVec.toNat_setWidth_of_le hn]
  exact x.isLt

/-- An operand that fits `n` bits is its low `n` bits, widened. -/
theorem setWidth_operandField {n : Nat} {w : BitVec 56} (h : operandFits w n = true) :
    (operandField w 0 n).setWidth 56 = w := by
  have hlt : w.toNat < 2 ^ n := (operandFits_iff w n).1 h
  apply BitVec.eq_of_toNat_eq
  rw [operandField, BitVec.toNat_setWidth, BitVec.extractLsb'_toNat, Nat.shiftRight_zero, Nat.mod_eq_of_lt hlt,
    Nat.mod_eq_of_lt w.isLt]

/-- Two neighbouring fields of an operand, put together. -/
theorem operandField_append (w : BitVec 56) (lo m n : Nat) :
    operandField w (lo + n) m ++ operandField w lo n = operandField w lo (m + n) :=
  BitVec.extractLsb'_append_extractLsb'_eq_extractLsb' rfl

/-! ### Which words each reading accepts -/

theorem decodeLow_eq_ok_iff {n : Nat} (hn : n ≤ 56) (w : BitVec 56) (mk : BitVec n → Instr) (i : Instr) :
    decodeLow n w mk = .ok i ↔ ∃ x, x.setWidth 56 = w ∧ mk x = i := by
  constructor
  · intro h
    unfold decodeLow at h
    split at h
    next hfits => exact ⟨_, setWidth_operandField hfits, Except.ok.inj h⟩
    next => cases h
  · rintro ⟨x, rfl, rfl⟩
    rw [decodeLow, if_pos (operandFits_setWidth hn x), operandField_setWidth hn]

theorem decodeFixed_eq_ok_iff (w : BitVec 56) (pattern : Nat) (i j : Instr) :
    decodeFixed w pattern i = .ok j ↔ w.toNat = pattern ∧ i = j := by
  unfold decodeFixed
  split <;> simp [*]

theorem rejectUnless_eq_ok_iff (e : DecodeError) (r : Except DecodeError Instr) (i : Instr) :
    rejectUnless e r = .ok i ↔ r = .ok i ∧ i.wellFormed = true := by
  cases r with
  | error e' => simp [rejectUnless]
  | ok j =>
    rw [rejectUnless]
    by_cases hj : j.wellFormed = true
    · rw [if_pos hj]
      exact ⟨fun h => ⟨h, Except.ok.inj h ▸ hj⟩, And.left⟩
    · rw [if_neg hj]
      exact ⟨fun h => (nomatch h), fun ⟨h, hi⟩ => absurd (Except.ok.inj h ▸ hi) hj⟩

/-- Row 1: the nominal code stands above the duration. -/
theorem decodeOperand_inWin (d : Duration) (n : Nominal) :
    decodeOperand 1 (encodeOperand (.inWin d n)) = .ok (.inWin d n) := by
  have hlow : operandField (encodeOperand (.inWin d n)) 0 24 = d := by
    rw [operandField, encodeOperand, BitVec.extractLsb'_setWidth_of_le (by decide), BitVec.extractLsb'_append_eq_right]
  have hhigh : operandField (encodeOperand (.inWin d n)) 24 3 = nominalCode n := by
    rw [operandField, encodeOperand, BitVec.extractLsb'_setWidth_of_le (by decide), BitVec.extractLsb'_append_eq_left]
  have hfits : operandFits (encodeOperand (.inWin d n)) 27 = true := operandFits_setWidth (by decide) _
  simp only [decodeOperand, hlow, hhigh, hfits, (nominalOfCode_eq_some_iff _ n).2 rfl, if_true]

/-- Row 2: the two nominal codes stand above the Symbol. -/
theorem decodeOperand_matchSym (s : SymWord) (m sp : Nominal) :
    decodeOperand 2 (encodeOperand (.matchSym s m sp)) = .ok (.matchSym s m sp) := by
  have hlow : operandField (encodeOperand (.matchSym s m sp)) 0 50 = s :=
    BitVec.extractLsb'_append_eq_right
  have hmark : operandField (encodeOperand (.matchSym s m sp)) 50 3 = nominalCode m :=
    (BitVec.extractLsb'_append_eq_of_le (by decide)).trans BitVec.extractLsb'_append_eq_right
  have hspace : operandField (encodeOperand (.matchSym s m sp)) 53 3 = nominalCode sp :=
    (BitVec.extractLsb'_append_eq_of_le (by decide)).trans BitVec.extractLsb'_append_eq_left
  simp only [decodeOperand, hlow, hmark, hspace, (nominalOfCode_eq_some_iff _ _).2 rfl]

/-! ### The round trip from an operation -/

/-- Every row but CAPTURE_DELIVER reads the operand it was written as. -/
theorem decodeOperand_encodeOperand {i : Instr} (hwf : i.wellFormed = true) (hrow : rowNumber i ≠ 23) :
    decodeOperand (rowNumber i).toNat (encodeOperand i) = .ok i := by
  cases i with
  | inWin d n => exact decodeOperand_inWin d n
  | matchSym s m sp => exact decodeOperand_matchSym s m sp
  | codesetOk idx =>
    have hidx : (BitVec.ofNat 56 idx).toNat = idx := BitVec.toNat_ofNat _ _ ▸ Nat.mod_eq_of_lt (of_decide_eq_true hwf)
    exact congrArg (fun k => Except.ok (Instr.codesetOk k)) hidx
  | captureDeliver f => exact absurd rfl hrow
  | matchLead x | matchRpt x | matchZero x | matchOne x | classifyBit x | checksum x | key x | resolve x | symbolWord x
  | codesetEntry x | rawCommandWord x => exact (decodeLow_eq_ok_iff (by decide) _ _ _).2 ⟨x, rfl, rfl⟩
  | classifyLength x | decodeFrame x | assemble16 x | pushOk x | pushTimeout x | commandCode x | outcomeCode x =>
    exact (rejectUnless_eq_ok_iff _ _ _).2 ⟨(decodeLow_eq_ok_iff (by decide) _ _ _).2 ⟨x, rfl, rfl⟩, hwf⟩
  | decodeNormal | decodeRepeat | popOk | popEmpty | init | arm | takeFrame | waitExpire | runDecode | runResolve | runPush
  | rearm | halted => exact (decodeFixed_eq_ok_iff _ _ _ _).2 ⟨rfl, rfl⟩

theorem encodeFrame_eq_nil {i : Instr} (hrow : rowNumber i ≠ 23) : encodeFrame i = [] := by
  unfold encodeFrame
  split
  · exact absurd rfl hrow
  · rfl

theorem exists_captureDeliver {i : Instr} (hrow : rowNumber i = 23) : ∃ f, i = .captureDeliver f := by
  cases i <;> simp [rowNumber] at hrow ⊢

/-- Settles O5: the selector names the row; the row reads its operand back, and CAPTURE_DELIVER its Frame. -/
theorem encodedOperationDecodesToItself : Obligations.EncodedOperationDecodesToItself := by
  intro i hwf
  by_cases hrow : rowNumber i = 23
  · obtain ⟨f, rfl⟩ := exists_captureDeliver hrow
    exact (rejectUnless_eq_ok_iff _ _ _).2 ⟨rfl, hwf⟩
  · have hsel : (encode i).sel.toNat ≠ 23 := fun h => hrow (BitVec.eq_of_toNat_eq h)
    have hframe : (encode i).frame.isEmpty = true := List.isEmpty_iff.2 (encodeFrame_eq_nil hrow)
    rw [decode, if_neg hsel, if_pos hframe]
    exact decodeOperand_encodeOperand hwf hrow

/-! ### The round trip from a word -/

/-- Operation `i` is well-formed and its word has row number `sel`, operand `w` and no Symbol words. -/
def WrittenAs (sel : Nat) (w : BitVec 56) (i : Instr) : Prop :=
  i.wellFormed = true ∧ (rowNumber i).toNat = sel ∧ encodeOperand i = w ∧ encodeFrame i = []

theorem writtenAs_decodeLow {sel n : Nat} {w : BitVec 56} {mk : BitVec n → Instr} {i : Instr} (hn : n ≤ 56)
    (h : decodeLow n w mk = .ok i) (hmk : ∀ x, WrittenAs sel (x.setWidth 56) (mk x)) : WrittenAs sel w i := by
  obtain ⟨x, rfl, rfl⟩ := (decodeLow_eq_ok_iff hn _ _ _).1 h
  exact hmk x

theorem writtenAs_rejectUnless {sel n : Nat} {w : BitVec 56} {mk : BitVec n → Instr} {i : Instr} {e : DecodeError}
    (hn : n ≤ 56) (h : rejectUnless e (decodeLow n w mk) = .ok i)
    (hmk : ∀ x, (mk x).wellFormed = true → WrittenAs sel (x.setWidth 56) (mk x)) : WrittenAs sel w i := by
  obtain ⟨hlow, hwf⟩ := (rejectUnless_eq_ok_iff _ _ _).1 h
  obtain ⟨x, rfl, rfl⟩ := (decodeLow_eq_ok_iff hn _ _ _).1 hlow
  exact hmk x hwf

theorem writtenAs_decodeFixed {sel pattern : Nat} {w : BitVec 56} {i j : Instr} (h : decodeFixed w pattern i = .ok j)
    (hi : WrittenAs sel (BitVec.ofNat 56 pattern) i) : WrittenAs sel w j := by
  obtain ⟨rfl, rfl⟩ := (decodeFixed_eq_ok_iff _ _ _ _).1 h
  rwa [BitVec.ofNat_toNat, BitVec.setWidth_eq] at hi

theorem writtenAs_inWin {w : BitVec 56} {n : Nominal} (hfits : operandFits w 27 = true)
    (hn : nominalOfCode (operandField w 24 3) = some n) : WrittenAs 1 w (.inWin (operandField w 0 24) n) := by
  refine ⟨rfl, rfl, ?_, rfl⟩
  rw [encodeOperand, (nominalOfCode_eq_some_iff _ _).1 hn, operandField_append w 0 3 24]
  exact setWidth_operandField hfits

theorem writtenAs_matchSym {w : BitVec 56} {m sp : Nominal} (hm : nominalOfCode (operandField w 50 3) = some m)
    (hsp : nominalOfCode (operandField w 53 3) = some sp) :
    WrittenAs 2 w (.matchSym (operandField w 0 50) m sp) := by
  refine ⟨rfl, rfl, ?_, rfl⟩
  rw [encodeOperand, (nominalOfCode_eq_some_iff _ _).1 hm, (nominalOfCode_eq_some_iff _ _).1 hsp,
    operandField_append w 50 3 3, operandField_append w 0 6 50]
  exact BitVec.extractLsb'_eq_self

/-- What a row accepts it would write; the cases are the arms of the decoder, in the order of the table's rows. -/
theorem writtenAs_of_decodeOperand {sel : Nat} {w : BitVec 56} {i : Instr} (h : decodeOperand sel w = .ok i) :
    WrittenAs sel w i := by
  unfold decodeOperand at h
  split at h
  case h_1 =>
    split at h
    next hfits =>
      split at h
      next n hn => exact Except.ok.inj h ▸ writtenAs_inWin hfits hn
      next => cases h
    next => cases h
  case h_2 =>
    split at h
    next m sp hm hsp => exact Except.ok.inj h ▸ writtenAs_matchSym hm hsp
    next => cases h
  case h_16 =>
    obtain rfl := Except.ok.inj h
    exact ⟨decide_eq_true w.isLt, rfl, (BitVec.ofNat_toNat 56 w).trans (BitVec.setWidth_eq w), rfl⟩
  case h_3 | h_4 | h_5 | h_6 | h_7 | h_12 | h_14 | h_15 | h_30 | h_31 | h_32 =>
    exact writtenAs_decodeLow (by decide) h fun _ => ⟨rfl, rfl, rfl, rfl⟩
  case h_8 | h_9 | h_11 | h_17 | h_18 | h_33 | h_34 =>
    exact writtenAs_rejectUnless (by decide) h fun _ hwf => ⟨hwf, rfl, rfl, rfl⟩
  case h_10 | h_13 | h_19 | h_20 | h_21 | h_22 | h_23 | h_24 | h_25 | h_26 | h_27 | h_28 | h_29 =>
    exact writtenAs_decodeFixed h ⟨rfl, rfl, rfl, rfl⟩
  case h_35 => cases h

/-- Settles O6: a word that decodes is the word its row writes, selector, operand and Symbol words. -/
theorem decodedWordEncodesToItself : Obligations.DecodedWordEncodesToItself := by
  intro c i h
  unfold decode at h
  split at h
  next hsel =>
    obtain ⟨hfixed, hwf⟩ := (rejectUnless_eq_ok_iff _ _ _).1 h
    obtain ⟨hopnd, rfl⟩ := (decodeFixed_eq_ok_iff _ _ _ _).1 hfixed
    have hrow : c.sel = 23 := BitVec.eq_of_toNat_eq hsel
    have hword : c.opnd = 1 := BitVec.eq_of_toNat_eq hopnd
    refine ⟨hwf, ?_⟩
    rw [encode, rowNumber, ← hrow, encodeOperand, ← hword, encodeFrame]
  next =>
    split at h
    next hframe =>
      obtain ⟨hwf, hrow, hopnd, hnone⟩ := writtenAs_of_decodeOperand h
      refine ⟨hwf, ?_⟩
      rw [encode, BitVec.eq_of_toNat_eq hrow, hopnd, hnone, ← List.isEmpty_iff.1 hframe]
    next => cases h

/-- Settles O4: closed words, each decoded by evaluation. -/
theorem wordsOfTheSpecDecode : Obligations.WordsOfTheSpecDecode := by
  refine ⟨?_, ?_, ?_, ?_, ?_, ?_, ?_, ?_, ?_, ?_, ?_, ?_, ?_⟩ <;> rfl

end Sys2Proof.Machine
end

section
/-! PROOFS. What holds of every operation that answers a next state (10_state.md R22, R29 to R31; 44_decode_loop.md R211;
60_exceptions.md R230, R240, R246): case analyses over its effect. -/

namespace Sys2Proof.Machine

/-! ### The phases and the configuration -/

/-- Settles O43: what no effect writes, and what INIT alone writes, which runs in S_INIT only. -/
theorem onlyInitWritesConfiguration : Obligations.OnlyInitWritesConfiguration := by
  intro i s t h
  have he := effect_of_exec h
  obtain ⟨hrom, hports⟩ := environment_effect he
  refine ⟨hrom, hports, fun hnot => config_effect ?_ he⟩
  rintro rfl
  rcases hnot with hfsm | hi
  · exact hfsm (execInit_next h).1
  · exact hi rfl

theorem phase_eq_halt_iff (s : State) : s.phase = .halt ↔ s.fsm = .halt := by
  unfold State.phase
  cases s.fsm <;> simp

theorem phase_eq_init_iff (s : State) : s.phase = .init ↔ s.fsm = .init := by
  unfold State.phase
  cases s.fsm <;> simp

/-- INIT runs in the INIT phase alone, so every other phase stays over an operation. -/
theorem phase_effect_of_ne_init {i : Instr} {s t : State} (he : Effect s i t) (hs : s.phase ≠ .init) :
    t.phase = s.phase := by
  refine phase_effect ?_ he
  rintro rfl
  cases he with
  | returns hpure => cases hpure
  | initSucceeds hfsm | initFails hfsm => exact hs ((phase_eq_init_iff s).2 hfsm)

/-- In S_HALT SLOT IDLE stays: a delivery needs SLOT ARMED, and the operations that arm run in other states. -/
theorem slot_effect_of_halt {i : Instr} {s t : State} (he : Effect s i t) (hfsm : s.fsm = .halt)
    (hslot : s.slot = .idle) : t.slot = .idle := by
  cases he with
  | returns | pushOk | pushTimeout | popOk | popEmpty | initFails | takeFrame | waitExpire | decodes | decodeEnds
  | resolves | misses | dispatches | timesOut | halted => exact hslot
  | initSucceeds h | arm h | rearm h => exact absurd (hfsm.symm.trans h) (by decide)
  | deliver _ h => exact absurd (hslot.symm.trans h) (by decide)

/-- Settles O40: turns leave FSM and SLOT alone, and of the operations INIT alone leaves a phase. -/
theorem phasesAreLeftOnlyAsStated : Obligations.PhasesAreLeftOnlyAsStated := by
  intro s t hstep hreset
  rcases step_cases hstep with ⟨i, rest, -, hexec⟩ | ⟨_, _, _, _, _, _, _, _, _, rfl⟩ | ⟨rest, hin, -⟩
  · have he := effect_of_exec hexec
    refine ⟨fun hhalt => ⟨?halted, ?idle⟩, fun hrun => ?run, fun hinit hleft => ?init⟩
    case halted => exact (phase_effect_of_ne_init he (hhalt ▸ by decide)).trans hhalt
    case idle => exact fun hslot => slot_effect_of_halt he ((phase_eq_halt_iff s).1 hhalt) hslot
    case run => exact (phase_effect_of_ne_init he (hrun ▸ by decide)).trans hrun
    case init =>
      by_cases hi : i = .init
      · subst hi
        refine ⟨rest, hexec, ?_⟩
        rcases execInit_next hexec with ⟨-, ⟨-, -, rfl⟩ | ⟨-, rfl⟩⟩ <;> rfl
      · exact absurd ((phase_effect hi he).trans hinit) hleft
  · exact ⟨fun h => ⟨h, id⟩, id, fun h hleft => absurd h hleft⟩
  · exact absurd hin (hreset rest)

/-! ### The edges of the loop (R211) -/

/-- The operations of the loop move FSM along an edge and are the ones that FSM and SLOT select; no other moves it. -/
theorem loop_effect {i : Instr} {s t : State} (he : Effect s i t) :
    (i ∉ loopOperations ∧ t.fsm = s.fsm) ∨
      (loopEdge s.fsm t.fsm = true ∧ decodeFsm (fsmCode s.fsm) (slotCode s.slot) = .ok i) := by
  cases he with
  | returns hpure =>
    have hloop : ∀ j ∈ loopOperations, isPure j = false := by decide
    exact .inl ⟨fun hmem => by simp [hloop i hmem] at hpure, rfl⟩
  | pushOk | pushTimeout | popOk | popEmpty | arm | deliver => exact .inl ⟨by simp [loopOperations], rfl⟩
  | initSucceeds hfsm | initFails hfsm | decodes hfsm | resolves hfsm | misses hfsm | dispatches hfsm | timesOut hfsm
  | rearm hfsm => exact .inr (by rw [hfsm]; exact ⟨rfl, rfl⟩)
  | takeFrame hfsm hslot => exact .inr (by rw [hfsm, hslot]; exact ⟨rfl, rfl⟩)
  | waitExpire hfsm hslot => exact .inr (by simp [hfsm, hslot, fsmAfter, loopEdge, fsmCode, slotCode, decodeFsm])
  | decodeEnds hfsm ho => exact .inr (by rw [hfsm]; rcases ho with rfl | rfl | rfl | rfl <;> exact ⟨rfl, rfl⟩)
  | halted hfsm => exact .inr (by rw [hfsm]; exact ⟨rfl, rfl⟩)

/-- Each operation of the loop asks first for the one FSM state that selects it (R200, R202 to R208). -/
theorem exec_loop_requires {i : Instr} (hi : i ∈ loopOperations) (s : State) :
    ∃ f x o, decodeFsm (fsmCode f) (slotCode x) = .ok i ∧
      exec i s = require (decide (s.fsm = f)) .wrongLoopState o := by
  simp only [loopOperations, List.mem_cons, List.not_mem_nil, or_false] at hi
  rcases hi with rfl | rfl | rfl | rfl | rfl | rfl | rfl | rfl
  · exact ⟨.init, .idle, _, rfl, rfl⟩
  · exact ⟨.wait, .full, _, rfl, rfl⟩
  · exact ⟨.wait, .armed, _, rfl, rfl⟩
  · exact ⟨.decode, .idle, _, rfl, rfl⟩
  · exact ⟨.resolve, .idle, _, rfl, rfl⟩
  · exact ⟨.push, .idle, _, rfl, rfl⟩
  · exact ⟨.rearm, .idle, _, rfl, rfl⟩
  · exact ⟨.halt, .idle, _, rfl, rfl⟩

/-- Settles O41: the edge and the selection of each effect; the first condition of each operation of the loop. -/
theorem loopMovesOnlyAlongItsTable : Obligations.LoopMovesOnlyAlongItsTable := by
  intro i s
  constructor
  · intro t h
    rcases loop_effect (effect_of_exec h) with ⟨hi, hsame⟩ | ⟨hedge, hsel⟩
    · refine ⟨fun hmoved => absurd hsame hmoved, fun hor => ?_⟩
      rcases hor with hmoved | hmem
      · exact absurd hsame hmoved
      · exact absurd hmem hi
    · exact ⟨fun _ => hedge, fun _ => hsel⟩
  · intro hi hnever
    obtain ⟨f, x, o, hsel, hexec⟩ := exec_loop_requires hi s
    have hfsm : s.fsm ≠ f := by
      rintro rfl
      exact hnever x hsel
    rw [hexec, decide_eq_false hfsm, require_false]

/-! ### The outcomes (R31, R230, R240) -/

/-- An operation leaves LAST_OUTCOME and the strobe, or raises an outcome from the one state it belongs to. -/
theorem outcome_effect {i : Instr} {s t : State} (he : Effect s i t) :
    (t.lastOutcome = s.lastOutcome ∧ t.outcStrobe = s.outcStrobe) ∨
      (t.outcStrobe = true ∧ t.lastOutcome = .captureTimeout ∧ s.fsm = .wait ∧ t.fsm = .wait) ∨
      (t.outcStrobe = true ∧ t.lastOutcome = .configError ∧ s.fsm = .init ∧ t.fsm = .halt) ∨
      (t.outcStrobe = true ∧ t.lastOutcome ≠ .captureTimeout ∧ t.lastOutcome ≠ .configError ∧ t.lastOutcome ≠ .none ∧
        t.fsm = .rearm) := by
  cases he with
  | returns | pushOk | pushTimeout | popOk | popEmpty | initSucceeds | arm | deliver | takeFrame | decodes | resolves
  | rearm | halted => exact .inl ⟨rfl, rfl⟩
  | waitExpire hfsm => exact .inr (.inl ⟨rfl, rfl, hfsm, hfsm⟩)
  | initFails hfsm => exact .inr (.inr (.inl ⟨rfl, rfl, hfsm, rfl⟩))
  | misses | dispatches | timesOut => exact .inr (.inr (.inr ⟨rfl, by simp, by simp, by simp, rfl⟩))
  | decodeEnds _ ho =>
    refine .inr (.inr (.inr ⟨rfl, ?_⟩))
    rcases ho with rfl | rfl | rfl | rfl <;> exact ⟨by simp, by simp, by simp, rfl⟩

/-- Settles O42: without a strobe no outcome was raised; with one, the three kinds of outcome. -/
theorem outcomeFixesTheContinuation : Obligations.OutcomeFixesTheContinuation := by
  intro i s t h hlow
  rcases outcome_effect (effect_of_exec h) with
    ⟨hlast, hstrobe⟩ | ⟨hstrobe, hlast, hs, ht⟩ | ⟨hstrobe, hlast, hs, ht⟩ | ⟨hstrobe, hc, he, hn, ht⟩
  · refine ⟨fun _ => hlast, fun hhigh => ?_⟩
    rw [hstrobe, hlow] at hhigh
    cases hhigh
  · simp [hstrobe, hlast, hs, ht]
  · simp [hstrobe, hlast, hs, ht]
  · simp [hstrobe, hc, he, hn, ht]

/-! ### The result registers (R22, R136) -/

/-- A word whose check byte is right is the complement pair of its low byte. -/
theorem eq_commandWord_of_checksumOk {w : BitVec 16} (h : checksumOk w = true) : w = ~~~lowByte w ++ lowByte w := by
  have hhigh : w.extractLsb' 8 8 = ~~~lowByte w := (checksumOk_iff w).1 h
  have hwhole : w.extractLsb' 8 8 ++ w.extractLsb' 0 8 = w.extractLsb' 0 16 :=
    BitVec.extractLsb'_append_extractLsb'_eq_extractLsb' rfl
  rw [← hhigh, lowByte, hwhole, BitVec.extractLsb'_eq_self]

/-- What a Normal result says of the Frame it was decoded from (41_frame_decoder.md R133). -/
theorem carries_of_decodeNormalFrame {fb : FrameBuffer} {v : Variant} {a : BitVec 16} {c : BitVec 8}
    (h : decodeNormalFrame fb v = .normal a c) : CarriesField fb 1 a ∧ CarriesField fb 17 (~~~c ++ c) := by
  unfold decodeNormalFrame at h
  split at h
  next =>
    split at h
    next => cases h
    next a' ha =>
      split at h
      next => cases h
      next w hw =>
        split at h
        next hok =>
          obtain ⟨rfl, rfl⟩ := DecodeResult.normal.inj h
          exact ⟨carries_of_assembleField ha, eq_commandWord_of_checksumOk hok ▸ carries_of_assembleField hw⟩
        next => cases h
  next => cases h

/-- Only a Frame of 34 symbols decodes as a Normal one (R131). -/
theorem decodeAnyFrame_eq_normal {n : BitVec 7} {fb : FrameBuffer} {v : Variant} {a : BitVec 16} {c : BitVec 8}
    (h : decodeAnyFrame n.toNat fb v = .normal a c) : n = 34 ∧ decodeNormalFrame fb v = .normal a c := by
  unfold decodeAnyFrame at h
  rw [classifyCount_toNat] at h
  by_cases hnormal : n = 34
  · rw [if_pos hnormal] at h
    exact ⟨hnormal, h⟩
  · rw [if_neg hnormal] at h
    by_cases hrepeat : n = 2
    · rw [if_pos hrepeat] at h
      simp only [decodeRepeatFrame] at h
      split at h <;> cases h
    · rw [if_neg hrepeat] at h
      cases h

/-- Settles O45: the one effect that writes the two registers writes the result of a Normal decode. -/
theorem resultRegistersOnlyFromANormalDecode : Obligations.ResultRegistersOnlyFromANormalDecode := by
  intro i s t h
  cases effect_of_exec h with
  | decodes hfsm hres =>
    obtain ⟨hcount, hnormal⟩ := decodeAnyFrame_eq_normal hres
    obtain ⟨haddr, hword⟩ := carries_of_decodeNormalFrame hnormal
    exact .inr ⟨rfl, hfsm, hcount, rfl, haddr, hword⟩
  | returns | pushOk | pushTimeout | popOk | popEmpty | initSucceeds | initFails | arm | deliver | takeFrame | waitExpire
  | decodeEnds | resolves | misses | dispatches | timesOut | rearm | halted => exact .inl ⟨rfl, rfl⟩

end Sys2Proof.Machine
end

section
/-! PROOFS. What an operation does not read (70_reset_and_hazards.md R269; 10_state.md R20, R21, R25, R35): run on two
states that differ in the ports alone, or in everything but the tuple, the table and the ports, it goes the same way. -/

namespace Sys2Proof.Machine

/-- Two answers go the same way: next states in a relation, or the same stop. -/
inductive Alike (R : State → State → Prop) : Res → Res → Prop
  | next {t t' : State} (h : R t t') : Alike R (.next t) (.next t')
  | fault (f : Fault) : Alike R (.fault f) (.fault f)
  | refused (r : Refusal) : Alike R (.refused r) (.refused r)

theorem Alike.require {R : State → State → Prop} {o o' : Res} (p : Bool) (r : Refusal) (h : Alike R o o') :
    Alike R (require p r o) (require p r o') := by
  cases p with
  | true => exact h
  | false => exact .refused r

theorem Alike.exists_next {R : State → State → Prop} {o o' : Res} (h : Alike R o o') {t : State} (ht : o = .next t) :
    ∃ t', o' = .next t' ∧ R t t' := by
  cases h with
  | next hR =>
    obtain rfl := Host.Outcome.next.inj ht
    exact ⟨_, rfl, hR⟩
  | fault | refused => cases ht

theorem Alike.eq_refused {R : State → State → Prop} {o o' : Res} (h : Alike R o o') {r : Refusal}
    (hr : o = .refused r) : o' = .refused r := by
  cases h with
  | refused => exact hr
  | next | fault => cases hr

/-! ### The configuration ports (R269) -/

/-- The same state with other values on the configuration ports. -/
def State.withPorts (p : Cfg) (s : State) : State := { s with ports := p }

@[simp] theorem State.withPorts_fsm (s : State) (p : Cfg) : (s.withPorts p).fsm = s.fsm := rfl
@[simp] theorem State.withPorts_fb (s : State) (p : Cfg) : (s.withPorts p).fb = s.fb := rfl
@[simp] theorem State.withPorts_cfg (s : State) (p : Cfg) : (s.withPorts p).cfg = s.cfg := rfl
@[simp] theorem State.withPorts_fbCount (s : State) (p : Cfg) : (s.withPorts p).fbCount = s.fbCount := rfl
@[simp] theorem State.withPorts_q (s : State) (p : Cfg) : (s.withPorts p).q = s.q := rfl
@[simp] theorem State.withPorts_csActive (s : State) (p : Cfg) : (s.withPorts p).csActive = s.csActive := rfl
@[simp] theorem State.withPorts_resCmd (s : State) (p : Cfg) : (s.withPorts p).resCmd = s.resCmd := rfl

theorem latchField_withPorts (base : Nat) (s : State) (p : Cfg) :
    (s.withPorts p).latchField base = (s.latchField base).withPorts p := by
  unfold State.latchField
  dsimp only
  split_ifs <;> rfl

theorem latchNormal_withPorts (s : State) (p : Cfg) : (s.withPorts p).latchNormal = s.latchNormal.withPorts p := by
  unfold State.latchNormal
  rw [latchField_withPorts, latchField_withPorts, State.withPorts_fb, State.withPorts_cfg]
  split_ifs <;> rfl

theorem latchDecode_withPorts (n : Nat) (s : State) (p : Cfg) :
    (s.withPorts p).latchDecode n = (s.latchDecode n).withPorts p := by
  unfold State.latchDecode
  rw [latchNormal_withPorts]
  split <;> rfl

theorem concludeDecode_withPorts (r : DecodeResult) (s : State) (p : Cfg) :
    (s.withPorts p).concludeDecode r = (s.concludeDecode r).withPorts p := by
  cases r <;> rfl

/-- The ports are read by INIT and by the ARM inside it alone, and by those in S_INIT alone. -/
theorem exec_withPorts {i : Instr} {s : State} (p : Cfg) (h : s.fsm ≠ .init ∨ (i ≠ .init ∧ i ≠ .arm)) :
    Alike (fun t t' => t' = t.withPorts p) (exec i s) (exec i (s.withPorts p)) := by
  cases i with
  | inWin | matchSym | matchLead | matchRpt | matchZero | matchOne | classifyBit | checksum | decodeRepeat | key | resolve
  | codesetOk | symbolWord | codesetEntry | rawCommandWord => exact .next rfl
  | classifyLength | popEmpty | rearm | halted => exact .require _ _ (.next rfl)
  | captureDeliver | takeFrame | waitExpire => exact .require _ _ (.require _ _ (.next rfl))
  | decodeFrame n =>
    rw [exec, execDecodeFrame, exec, execDecodeFrame, latchDecode_withPorts]
    exact .require _ _ (.next rfl)
  | decodeNormal =>
    rw [exec, execDecodeNormal, exec, execDecodeNormal, latchNormal_withPorts]
    exact .next rfl
  | assemble16 base =>
    rw [exec, execAssemble16, exec, execAssemble16, latchField_withPorts]
    exact .require _ _ (.next rfl)
  | runDecode =>
    rw [exec, execRunDecode, exec, execRunDecode, State.withPorts_fbCount, latchDecode_withPorts,
      concludeDecode_withPorts]
    exact .require _ _ (.next rfl)
  | commandCode c =>
    simp only [exec, execCommandCode]
    cases commandOfCode c with
    | none => exact .refused _
    | some k => exact .next rfl
  | outcomeCode o =>
    simp only [exec, execOutcomeCode]
    cases outcomeOfCode o with
    | none => exact .refused _
    | some k => exact .next rfl
  | pushOk x =>
    simp only [exec, execPushOk]
    cases commandOfCode x with
    | none => exact .refused _
    | some c => exact .require _ _ (.require _ _ (.next rfl))
  | pushTimeout x =>
    simp only [exec, execPushTimeout]
    cases commandOfCode x with
    | none => exact .refused _
    | some c => exact .require _ _ (.require _ _ (.next rfl))
  | popOk =>
    rw [exec, execPopOk, exec, execPopOk, State.withPorts_q]
    cases s.q with
    | nil => exact .refused _
    | cons c rest => exact .next rfl
  | runResolve =>
    refine .require _ _ ?_
    rw [State.withPorts_csActive, State.withPorts_resCmd]
    cases resolveCommand s.csActive s.resCmd with
    | none => exact .next rfl
    | some k => exact .next rfl
  | runPush =>
    refine .require _ _ ?_
    rw [State.withPorts_q]
    split
    · exact .next rfl
    · exact .require _ _ (.next rfl)
  | init =>
    have hfsm : s.fsm ≠ .init := h.resolve_right fun hi => hi.1 rfl
    rw [exec, execInit, exec, execInit, State.withPorts_fsm, decide_eq_false hfsm]
    exact .refused _
  | arm =>
    have hfsm : s.fsm ≠ .init := h.resolve_right fun hi => hi.2 rfl
    rw [exec, execArm, exec, execArm, State.withPorts_fsm, decide_eq_false hfsm]
    exact .refused _

/-- Settles O44: the two runs go the same way. -/
theorem portsIgnoredAfterInit : Obligations.PortsIgnoredAfterInit := by
  intro i s p h
  have halike := exec_withPorts p h
  constructor
  · intro t ht
    obtain ⟨t', ht', rfl⟩ := halike.exists_next ht
    exact ht'
  · exact fun r hr => halike.eq_refused hr

/-! ### The registers outside the tuple (R20, R21, R25, R35) -/

/-- `s'` with the tuple, the table and the ports of `s`. -/
def State.withTupleOf (s s' : State) : State :=
  { s' with
    fsm := s.fsm, cfg := s.cfg, csActive := s.csActive, slot := s.slot, fbCount := s.fbCount, fb := s.fb,
    resAddr := s.resAddr, resCmd := s.resCmd, pendCmd := s.pendCmd, lastOutcome := s.lastOutcome, q := s.q,
    ports := s.ports, rom := s.rom }

theorem eq_withTupleOf {s s' : State} (htuple : s.tuple = s'.tuple) (hrom : s.rom = s'.rom)
    (hports : s.ports = s'.ports) : s' = s.withTupleOf s' := by
  cases s
  cases hrom
  cases hports
  cases htuple
  rfl

@[simp] theorem State.withTupleOf_cfg (s s' : State) : (s.withTupleOf s').cfg = s.cfg := rfl
@[simp] theorem State.withTupleOf_fb (s s' : State) : (s.withTupleOf s').fb = s.fb := rfl
@[simp] theorem State.withTupleOf_q (s s' : State) : (s.withTupleOf s').q = s.q := rfl
@[simp] theorem State.withTupleOf_csActive (s s' : State) : (s.withTupleOf s').csActive = s.csActive := rfl
@[simp] theorem State.withTupleOf_resCmd (s s' : State) : (s.withTupleOf s').resCmd = s.resCmd := rfl
@[simp] theorem State.withTupleOf_rom (s s' : State) : (s.withTupleOf s').rom = s.rom := rfl
@[simp] theorem State.withTupleOf_ports (s s' : State) : (s.withTupleOf s').ports = s.ports := rfl

theorem tuple_latchDecode (n : Nat) (s : State) : (s.latchDecode n).tuple = s.tuple := by
  obtain ⟨a, w, i, h⟩ := latchDecode_frame n s
  rw [h]
  rfl

theorem tuple_latchNormal (s : State) : s.latchNormal.tuple = s.tuple := by
  obtain ⟨a, w, i, h⟩ := latchNormal_frame s
  rw [h]
  rfl

theorem tuple_latchField (base : Nat) (s : State) : (s.latchField base).tuple = s.tuple := by
  obtain ⟨a, w, i, h⟩ := latchField_frame base s
  rw [h]
  rfl

theorem tuple_setRet (v : Ret) (s : State) : (s.setRet v).tuple = s.tuple := rfl

theorem tuple_withTupleOf (s s' : State) : (s.withTupleOf s').tuple = s.tuple := rfl

theorem tuple_raise (o : OutcomeCode) (s : State) :
    (s.raise o).tuple = { s.tuple with lastOutcome := o, fsm := fsmAfter o s.tuple.fsm } := rfl

/-- What RUN_DECODE makes of a result, in the tuple. -/
theorem tuple_concludeDecode_congr {s s' : State} (r : DecodeResult) (h : s.tuple = s'.tuple) :
    (s.concludeDecode r).tuple = (s'.concludeDecode r).tuple := by
  cases r with
  | normal a c =>
    change { s.tuple with resAddr := a, resCmd := c, fsm := .resolve } = { s'.tuple with resAddr := a, resCmd := c, fsm := .resolve }
    rw [h]
  | repeated | unsupportedLength | bitMismatch | checksumFailed =>
    simp only [State.concludeDecode, tuple_raise, h]

/-- Next states with one tuple and, where the operation returns a value, one value. -/
def SameAnswer (i : Instr) (t t' : State) : Prop :=
  t'.tuple = t.tuple ∧ (returnsValue i = true → t'.ret = t.ret)

/-- No operation reads what `withTupleOf` leaves of `s'`. -/
theorem exec_withTupleOf (i : Instr) (s s' : State) :
    Alike (SameAnswer i) (exec i s) (exec i (s.withTupleOf s')) := by
  have same : ∀ {i : Instr} {t t' : State}, t'.tuple = t.tuple → t'.ret = t.ret → SameAnswer i t t' :=
    fun htuple hret => ⟨htuple, fun _ => hret⟩
  have silent : ∀ {i : Instr} {t t' : State}, returnsValue i = false → t'.tuple = t.tuple → SameAnswer i t t' :=
    fun hi htuple => ⟨htuple, fun hret => by rw [hi] at hret; cases hret⟩
  cases i with
  | inWin | matchSym | matchLead | matchRpt | matchZero | matchOne | classifyBit | checksum | decodeRepeat | key | resolve
  | codesetOk | symbolWord | codesetEntry | rawCommandWord => exact .next (same rfl rfl)
  | classifyLength | popEmpty => exact .require _ _ (.next (same rfl rfl))
  | rearm | halted => exact .require _ _ (.next (silent rfl rfl))
  | captureDeliver | takeFrame | waitExpire => exact .require _ _ (.require _ _ (.next (silent rfl rfl)))
  | arm => exact .require _ _ (.require _ _ (.require _ _ (.next (silent rfl rfl))))
  | decodeFrame n =>
    rw [exec, execDecodeFrame, exec, execDecodeFrame, State.withTupleOf_fb, State.withTupleOf_cfg]
    refine .require _ _ (.next (same ?_ ?_))
    · rw [tuple_setRet, tuple_setRet, tuple_latchDecode, tuple_latchDecode, tuple_withTupleOf]
    · rw [State.setRet_ret, State.setRet_ret]
  | decodeNormal =>
    rw [exec, execDecodeNormal, exec, execDecodeNormal, State.withTupleOf_fb, State.withTupleOf_cfg]
    refine .next (same ?_ ?_)
    · rw [tuple_setRet, tuple_setRet, tuple_latchNormal, tuple_latchNormal, tuple_withTupleOf]
    · rw [State.setRet_ret, State.setRet_ret]
  | assemble16 base =>
    rw [exec, execAssemble16, exec, execAssemble16, State.withTupleOf_fb]
    refine .require _ _ (.next (same ?_ ?_))
    · rw [tuple_setRet, tuple_setRet, tuple_latchField, tuple_latchField, tuple_withTupleOf]
    · rw [State.setRet_ret, State.setRet_ret]
  | runDecode =>
    refine .require _ _ (.next (silent rfl (tuple_concludeDecode_congr _ ?_)))
    rw [tuple_latchDecode, tuple_latchDecode, tuple_withTupleOf]
  | commandCode c =>
    simp only [exec, execCommandCode]
    cases commandOfCode c with
    | none => exact .refused _
    | some k => exact .next (same rfl rfl)
  | outcomeCode o =>
    simp only [exec, execOutcomeCode]
    cases outcomeOfCode o with
    | none => exact .refused _
    | some k => exact .next (same rfl rfl)
  | pushOk x =>
    simp only [exec, execPushOk]
    cases commandOfCode x with
    | none => exact .refused _
    | some c => exact .require _ _ (.require _ _ (.next (same rfl rfl)))
  | pushTimeout x =>
    simp only [exec, execPushTimeout]
    cases commandOfCode x with
    | none => exact .refused _
    | some c => exact .require _ _ (.require _ _ (.next (same rfl rfl)))
  | popOk =>
    rw [exec, execPopOk, exec, execPopOk, State.withTupleOf_q]
    cases s.q with
    | nil => exact .refused _
    | cons c rest => exact .next (same rfl rfl)
  | runResolve =>
    refine .require _ _ ?_
    rw [State.withTupleOf_csActive, State.withTupleOf_resCmd]
    cases resolveCommand s.csActive s.resCmd with
    | none => exact .next (silent rfl rfl)
    | some k => exact .next (silent rfl rfl)
  | runPush =>
    refine .require _ _ ?_
    rw [State.withTupleOf_q]
    split
    · exact .next (silent rfl rfl)
    · exact .require _ _ (.next (silent rfl rfl))
  | init =>
    refine .require _ _ ?_
    rw [State.withTupleOf_rom, State.withTupleOf_ports]
    split
    · exact .require _ _ (.next (silent rfl rfl))
    · exact .next (silent rfl rfl)

/-- Settles O46: the second state is one that keeps of its own only what no operation reads. -/
theorem onlyTheTupleMatters : Obligations.OnlyTheTupleMatters := by
  intro i s s' htuple hrom hports
  rw [eq_withTupleOf htuple hrom hports]
  have halike := exec_withTupleOf i s s'
  exact ⟨fun t ht => halike.exists_next ht, fun r hr => halike.eq_refused hr⟩

end Sys2Proof.Machine
end

section
/-! PROOFS. ASSEMBLE16 and RUN_DECODE (41_frame_decoder.md R134, R136; 10_state.md R21, R25; 44_decode_loop.md R204): what
the assembly returns and leaves in its registers, and what a decode that fails leaves. -/

namespace Sys2Proof.Machine

theorem exec_assemble16 (base : BitVec 7) (s : State) :
    exec (.assemble16 base) s = require (decide (base.toNat + 16 ≤ 64)) .baseOutsideBuffer
      (.next ((s.latchField base.toNat).setRet (.field (assembleField s.fb base.toNat)))) := rfl

theorem exec_assemble16_of_le {base : BitVec 7} (h : base.toNat + 16 ≤ 64) (s : State) :
    exec (.assemble16 base) s =
      .next ((s.latchField base.toNat).setRet (.field (assembleField s.fb base.toNat))) := by
  rw [exec_assemble16, decide_eq_true h, require_true]

/-- Settles O16: the field that is returned is the assembled one, in the frame of a pure operation. -/
theorem assemblyIsLowBitFirst : Obligations.AssemblyIsLowBitFirst := by
  intro base s
  refine ⟨fun hin => ?inside, fun hout => ?outside⟩
  case inside =>
    have answer : ∀ x, assembleField s.fb base.toNat = x →
        ∃ t, exec (.assemble16 base) s = .next t ∧ t.ret = .field x ∧ SameButScan s t := by
      rintro x rfl
      exact ⟨_, exec_assemble16_of_le hin s, rfl, sameButScan_of_exec rfl (exec_assemble16_of_le hin s)⟩
    exact ⟨fun x hx => answer _ (assembleField_of_carries hx), fun hbad => answer _ (assembleField_of_bad hbad)⟩
  case outside => rw [exec_assemble16, decide_eq_false hout.not_ge, require_false]

/-- The address field, wholly classified, is collected in ADDR_SR. -/
theorem latchField_address {s : State} {x : BitVec 16} (h : CarriesField s.fb 1 x) :
    s.latchField 1 = { s with addrSr := x, symIdx := 16 } := by
  simp only [State.latchField, scanField_of_carries h]
  rfl

/-- The word field, wholly classified, is collected in WORD_SR. -/
theorem latchField_word {s : State} {x : BitVec 16} (h : CarriesField s.fb 17 x) :
    s.latchField 17 = { s with wordSr := x, symIdx := 32 } := by
  simp only [State.latchField, scanField_of_carries h]
  rfl

/-- Settles O17: the scan of sixteen classified symbols fills the register of its base. -/
theorem assemblyRegistersCollectTheField : Obligations.AssemblyRegistersCollectTheField := by
  intro s x
  constructor
  · intro h
    refine ⟨_, exec_assemble16_of_le (by decide) s, ?_⟩
    rw [show (1 : BitVec 7).toNat = 1 from rfl, latchField_address h]
    exact ⟨rfl, rfl, rfl⟩
  · intro h
    refine ⟨_, exec_assemble16_of_le (by decide) s, ?_⟩
    rw [show (17 : BitVec 7).toNat = 17 from rfl, latchField_word h]
    exact ⟨rfl, rfl, rfl⟩

/-! ### RUN_DECODE -/

/-- R131: the count 34 is that of a Normal frame, the count 2 that of a Repeat. -/
theorem decodeAnyFrame_34 (fb : FrameBuffer) (v : Variant) :
    decodeAnyFrame (34 : BitVec 7).toNat fb v = decodeNormalFrame fb v := rfl

theorem decodeAnyFrame_2 (fb : FrameBuffer) (v : Variant) :
    decodeAnyFrame (2 : BitVec 7).toNat fb v = decodeRepeatFrame fb v := rfl

/-- A transmitted Frame has symbols of the right classes, so only its check byte is left to decide. -/
theorem decodeNormalFrame_normalFrame (old : FrameBuffer) (v : Variant) (a w : BitVec 16) :
    decodeNormalFrame (writeFrame old (normalFrame v a w)) v =
      if w.extractLsb' 8 8 = ~~~ w.extractLsb' 0 8 then .normal a (w.extractLsb' 0 8) else .checksumFailed :=
  decodeNormalFrame_of_carries (isLead_writeFrame_normalFrame old v a w) (carriesField_address_normalFrame old v a w)
    (carriesField_word_normalFrame old v a w)

/-- Settles O23: the transmitted symbols are of the right classes, so the check byte decides; the outcome it raises touches
neither the queue nor the result. -/
theorem wrongCheckByteAlwaysFails : Obligations.WrongCheckByteAlwaysFails := by
  intro s a w old hcheck hfsm hcount hfb
  have hresult : decodeAnyFrame s.fbCount.toNat s.fb s.cfg.variant = .checksumFailed := by
    rw [hcount, decodeAnyFrame_34, hfb, decodeNormalFrame_normalFrame, if_neg hcheck]
  obtain ⟨sa, sw, x, hlatch⟩ := latchDecode_frame s.fbCount.toNat s
  rw [exec_runDecode hfsm, hresult, hlatch]
  exact ⟨_, rfl, rfl, rfl, rfl, rfl, rfl, rfl⟩

/-- Settles O36: whatever DECODE returns, its conclusion is one of the two continuations. -/
theorem runDecodeAlwaysCompletes : Obligations.RunDecodeAlwaysCompletes := by
  intro s hfsm
  refine ⟨_, exec_runDecode hfsm, ?_⟩
  obtain ⟨sa, sw, x, hlatch⟩ := latchDecode_frame s.fbCount.toNat s
  rw [hlatch]
  cases decodeAnyFrame s.fbCount.toNat s.fb s.cfg.variant with
  | normal a c => exact ⟨.inl rfl, rfl, fun h => (nomatch h), fun _ => ⟨rfl, rfl, rfl⟩⟩
  | repeated | unsupportedLength | bitMismatch | checksumFailed =>
    exact ⟨.inr rfl, rfl, fun _ => ⟨rfl, rfl, rfl⟩, fun h => (nomatch h)⟩

end Sys2Proof.Machine
end

section
/-! PROOFS. Single operations: the capture handoff (44_decode_loop.md R201, R209), the pop (43_dispatch_fifo.md R177,
R178), the look-up without the address (42_codeset_resolver.md R162), the word formats (30_encoding.md R89, R91, R92;
60_exceptions.md R230). -/

namespace Sys2Proof.Machine

/-! ### The capture handoff -/

theorem exec_arm (s : State) : exec .arm s = require (decide (s.fsm = .init)) .wrongLoopState
    (require (codesetIsOk s.rom s.ports.codesetIdx) .initWouldFail
      (require (decide (s.slot = .idle)) .slotNotIdle (.next s.armCapture))) := rfl

theorem exec_captureDeliver {f : List SymWord} (hlen : f.length ≤ 64) (s : State) :
    exec (.captureDeliver f) s = require (decide (s.slot = .armed)) .slotNotArmed (.next (s.deliver f)) := by
  rw [exec, execCaptureDeliver, Config.frameCap, decide_eq_true hlen, require_true]

theorem deliver_fbCount_toNat {f : List SymWord} (hlen : f.length ≤ 64) (s : State) :
    (s.deliver f).fbCount.toNat = f.length := by
  rw [State.deliver_fbCount, BitVec.toNat_ofNat]
  omega

/-- Settles O33: ARM's three conditions in turn; a delivery writes the symbols below its count. -/
theorem armAndDeliver : Obligations.ArmAndDeliver := by
  intro s
  rw [exec_arm]
  refine ⟨fun row hfsm hrow hlegal hslot => ?arms, fun hfsm hnone => ?fails, fun hfsm => ?elsewhere,
    fun f hlen hslot => ?delivers, fun f hlen hslot => ?notArmed⟩
  case arms =>
    rw [decide_eq_true hfsm, codesetIsOk_of_legalRow hrow hlegal, decide_eq_true hslot]
    rfl
  case fails =>
    rw [decide_eq_true hfsm, codesetIsOk_of_no_legalRow hnone]
    rfl
  case elsewhere => rw [decide_eq_false hfsm, require_false]
  case delivers =>
    refine ⟨s.deliver f, ?_, rfl, deliver_fbCount_toNat hlen s, fun i hi hbelow => ?_, fun i hi habove => ?_⟩
    · rw [exec_captureDeliver hlen, decide_eq_true hslot, require_true]
    · rw [State.deliver_fb, fbRead_writeFrame _ _ _ hi, dif_pos hbelow, List.getElem?_eq_getElem hbelow]
    · rw [State.deliver_fb, fbRead_writeFrame _ _ _ hi, dif_neg habove.not_gt]
  case notArmed => rw [exec_captureDeliver hlen, decide_eq_false hslot, require_false]

/-! ### The pop -/

theorem exec_popOk_of_cons {s : State} {c : Command} {rest : List Command} (h : s.q = c :: rest) :
    exec .popOk s = .next ((s.dequeue c rest).setRet (.command (some c))) := by
  rw [exec, execPopOk, h]

theorem exec_popOk_of_nil {s : State} (h : s.q = []) : exec .popOk s = .refused .queueEmpty := by
  rw [exec, execPopOk, h]

theorem exec_popEmpty (s : State) :
    exec .popEmpty s = require s.qEmpty .queueNotEmpty (.next (s.endEmptyPop.setRet (.command none))) := rfl

theorem qEmpty_eq_false_of_cons {s : State} {c : Command} {rest : List Command} (h : s.q = c :: rest) :
    s.qEmpty = false := by
  simp [State.qEmpty, h]

theorem exec_popEmpty_of_nil {s : State} (h : s.q = []) :
    exec .popEmpty s = .next (s.endEmptyPop.setRet (.command none)) := by
  rw [exec_popEmpty, qEmpty_eq_true_of_q_nil h, require_true]

/-- Settles O28: an entry enables POP_OK alone, an empty queue POP_EMPTY alone. -/
theorem popTakesTheHeadOrEndsEmpty : Obligations.PopTakesTheHeadOrEndsEmpty := by
  intro s
  refine ⟨fun c rest hq => ⟨exec_popOk_of_cons hq, ?_⟩, fun hq => ⟨exec_popEmpty_of_nil hq, exec_popOk_of_nil hq⟩⟩
  rw [exec_popEmpty, qEmpty_eq_false_of_cons hq, require_false]

/-! ### The look-up without the address -/

/-- Settles O47: both look-ups read RES_CMD and CS_ACTIVE, and go the same way. -/
theorem addressTakesNoPartInLookUp : Obligations.AddressTakesNoPartInLookUp := by
  intro s a hfsm
  cases hr : resolveCommand s.csActive s.resCmd with
  | none =>
    exact ⟨_, _, exec_runResolve_of_none hfsm hr, exec_runResolve_of_none (s := { s with resAddr := a }) hfsm hr,
      rfl, rfl, rfl, rfl⟩
  | some k =>
    exact ⟨_, _, exec_runResolve_of_some hfsm hr, exec_runResolve_of_some (s := { s with resAddr := a }) hfsm hr,
      rfl, rfl, rfl, rfl⟩

/-! ### The word formats -/

theorem exec_codesetEntry (e : BitVec 16) (s : State) :
    exec (.codesetEntry e) s = .next { s with ret := .entry (keyOf e) (lowByte e) } := rfl

theorem exec_rawCommandWord (w : BitVec 16) (s : State) :
    exec (.rawCommandWord w) s = .next { s with ret := .rawWord (highByte w) (lowByte w) } := rfl

theorem lowByte_append (hi lo : BitVec 8) : lowByte (hi ++ lo) = lo := BitVec.extractLsb'_append_eq_right

theorem highByte_append (hi lo : BitVec 8) : highByte (hi ++ lo) = hi := BitVec.extractLsb'_append_eq_left

/-- KEY reads the byte that the check byte of a raw word stands in. -/
theorem keyOf_append (hi lo : BitVec 8) : keyOf (hi ++ lo) = hi := BitVec.extractLsb'_append_eq_left

/-- Settles O59: the two readings of a word put together of two bytes. -/
theorem entryAndCommandWordBytes : Obligations.EntryAndCommandWordBytes := by
  intro hi lo s
  rw [exec_codesetEntry, exec_rawCommandWord, keyOf_append, highByte_append, lowByte_append]
  exact ⟨rfl, rfl⟩

theorem exec_commandCode (k : Command) (s : State) :
    exec (.commandCode (commandCode k)) s = .next { s with ret := .command (some k) } := by
  rw [exec, execCommandCode, commandOfCode_commandCode]
  rfl

theorem exec_outcomeCode (k : OutcomeCode) (s : State) :
    exec (.outcomeCode (outcomeCode k)) s = .next { s with ret := .outcome k } := by
  rw [exec, execOutcomeCode, outcomeOfCode_outcomeCode]
  rfl

/-- Settles O60: the codes listed are those of their names; no reserved code has one. -/
theorem codesNameCommandsAndOutcomes : Obligations.CodesNameCommandsAndOutcomes := by
  intro s
  refine ⟨fun p hp => ?command, fun x hx => ?reservedCommand, fun p hp => ?outcome, fun x hx => ?reservedOutcome⟩
  case command =>
    have hcode : p.1 = commandCode p.2 := by revert p; decide
    rw [hcode, exec_commandCode]
  case outcome =>
    have hcode : p.1 = outcomeCode p.2 := by revert p; decide
    rw [hcode, exec_outcomeCode]
  case reservedCommand => rw [exec, execCommandCode, commandOfCode_eq_none x hx]
  case reservedOutcome => rw [exec, execOutcomeCode, outcomeOfCode_eq_none x hx]

end Sys2Proof.Machine
end

section
/-! PROOFS. The step (44_decode_loop.md R211, R215; 43_dispatch_fifo.md R171, R180, R184; 70_reset_and_hazards.md R260 to
R262): what each input does, what the decoder does in its own turn, what the consumer side does in its own. -/

namespace Sys2Proof.Machine

/-! ### The decoder's turn -/

/-- A wait with ticks left counts (R171). -/
theorem decoderTurn_of_waits {s : State} (h : s.decoderWaits = true) : decoderTurn s = .next s.decoderTick := by
  rw [decoderTurn, if_pos h]

theorem decoderTurn_of_selected {s : State} {i : Instr} (h : s.decoderWaits = false)
    (hi : decodeFsm (fsmCode s.fsm) (slotCode s.slot) = .ok i) : decoderTurn s = exec i s := by
  rw [decoderTurn, h, hi]
  rfl

theorem decoderWaits_iff (s : State) : s.decoderWaits = true ↔
    (s.fsm = .wait ∧ s.slot = .armed ∧ s.waitTmr ≠ 0) ∨ (s.fsm = .push ∧ s.q.length = 16 ∧ s.pushTmr ≠ 0) := by
  simp [State.decoderWaits, qFull_iff, and_assoc]

/-- Outside S_WAIT and S_PUSH nothing is waited for. -/
theorem decoderWaits_eq_false {s : State} (hwait : s.fsm ≠ .wait) (hpush : s.fsm ≠ .push) :
    s.decoderWaits = false := by
  rw [Bool.eq_false_iff, ne_eq, decoderWaits_iff]
  tauto

theorem decoderTurn_init {s : State} (h : s.fsm = .init) : decoderTurn s = exec .init s :=
  decoderTurn_of_selected (decoderWaits_eq_false (by simp [h]) (by simp [h])) (by rw [h]; rfl)

theorem decoderTurn_decode {s : State} (h : s.fsm = .decode) : decoderTurn s = exec .runDecode s :=
  decoderTurn_of_selected (decoderWaits_eq_false (by simp [h]) (by simp [h])) (by rw [h]; rfl)

theorem decoderTurn_resolve {s : State} (h : s.fsm = .resolve) : decoderTurn s = exec .runResolve s :=
  decoderTurn_of_selected (decoderWaits_eq_false (by simp [h]) (by simp [h])) (by rw [h]; rfl)

theorem decoderTurn_rearm {s : State} (h : s.fsm = .rearm) : decoderTurn s = exec .rearm s :=
  decoderTurn_of_selected (decoderWaits_eq_false (by simp [h]) (by simp [h])) (by rw [h]; rfl)

theorem decoderTurn_halt {s : State} (h : s.fsm = .halt) : decoderTurn s = exec .halted s :=
  decoderTurn_of_selected (decoderWaits_eq_false (by simp [h]) (by simp [h])) (by rw [h]; rfl)

theorem decoderTurn_wait_full {s : State} (h : s.fsm = .wait) (hslot : s.slot = .full) :
    decoderTurn s = exec .takeFrame s := by
  refine decoderTurn_of_selected ?_ (by rw [h, hslot]; rfl)
  rw [Bool.eq_false_iff, ne_eq, decoderWaits_iff]
  simp [h, hslot]

theorem decoderTurn_wait_expired {s : State} (h : s.fsm = .wait) (hslot : s.slot = .armed) (htmr : s.waitTmr = 0) :
    decoderTurn s = exec .waitExpire s := by
  refine decoderTurn_of_selected ?_ (by rw [h, hslot]; rfl)
  rw [Bool.eq_false_iff, ne_eq, decoderWaits_iff]
  simp [h, htmr]

theorem decoderTurn_wait_tick {s : State} (h : s.fsm = .wait) (hslot : s.slot = .armed) (htmr : s.waitTmr ≠ 0) :
    decoderTurn s = .next { s with waitTmr := s.waitTmr - 1 } := by
  rw [decoderTurn_of_waits ((decoderWaits_iff s).2 (.inl ⟨h, hslot, htmr⟩)), State.decoderTick, if_pos h]

theorem decoderTurn_wait_idle {s : State} (h : s.fsm = .wait) (hslot : s.slot = .idle) :
    decoderTurn s = .fault .decoderStuck := by
  have hwaits : s.decoderWaits = false := by
    rw [Bool.eq_false_iff, ne_eq, decoderWaits_iff]
    simp [h, hslot]
  rw [decoderTurn, hwaits, h, hslot]
  rfl

theorem decoderTurn_push {s : State} (h : s.fsm = .push) (hlast : s.q.length ≠ 16 ∨ s.pushTmr = 0) :
    decoderTurn s = exec .runPush s := by
  refine decoderTurn_of_selected ?_ (by rw [h]; rfl)
  rw [Bool.eq_false_iff, ne_eq, decoderWaits_iff]
  simp [h]
  tauto

theorem decoderTurn_push_tick {s : State} (h : s.fsm = .push) (hfull : s.q.length = 16) (htmr : s.pushTmr ≠ 0) :
    decoderTurn s = .next { s with pushTmr := s.pushTmr - 1 } := by
  have hwait : s.fsm ≠ .wait := by simp [h]
  rw [decoderTurn_of_waits ((decoderWaits_iff s).2 (.inr ⟨h, hfull, htmr⟩)), State.decoderTick, if_neg hwait]

/-- With nothing scheduled and no pop in progress a step is the decoder's turn. -/
theorem step_alone {s : State} (hin : s.inputs = []) (hbusy : s.popBusy = false) :
    step s = decoderTurn s.clearPulses := by
  rw [step_own hin, hbusy]
  rfl

/-- Settles O8: the decoder's turn on the state with the pulses low, state by state of the loop. -/
theorem decoderRunsTheSelectedOperation : Obligations.DecoderRunsTheSelectedOperation := by
  intro s u h
  have hturn : ∃ rest, step s = decoderTurn u ∧ u = { s.clearPulses with inputs := rest } := by
    rcases h with ⟨hin, hbusy, rfl⟩ | ⟨rest, hin, rfl⟩
    · exact ⟨s.inputs, step_alone hin hbusy, rfl⟩
    · exact ⟨rest, step_input hin, rfl⟩
  obtain ⟨rest, hstep, rfl⟩ := hturn
  rw [hstep]
  exact ⟨fun h => decoderTurn_init h, fun h hslot => decoderTurn_wait_full h hslot,
    fun h hslot htmr => decoderTurn_wait_expired h hslot htmr, fun h hslot htmr => decoderTurn_wait_tick h hslot htmr,
    fun h hslot => decoderTurn_wait_idle h hslot, fun h => decoderTurn_decode h, fun h => decoderTurn_resolve h,
    fun h hlast => decoderTurn_push h hlast, fun h hfull htmr => decoderTurn_push_tick h hfull htmr,
    fun h => decoderTurn_rearm h, fun h => decoderTurn_halt h⟩

/-! ### The consumer's turn -/

theorem consumerTurn_idle {s : State} (h : s.popBusy = false) : consumerTurn s = .next s := by
  rw [consumerTurn, h]
  rfl

theorem consumerTurn_entry {s : State} (h : s.popBusy = true) (hq : s.q ≠ []) : consumerTurn s = exec .popOk s := by
  have hempty : s.qEmpty = false := by simp [State.qEmpty, hq]
  rw [consumerTurn, h, hempty]
  rfl

theorem consumerTurn_last {s : State} (h : s.popBusy = true) (hq : s.q = []) (htmr : s.popTmr = 0) :
    consumerTurn s = exec .popEmpty s := by
  rw [consumerTurn, h, qEmpty_eq_true_of_q_nil hq, if_pos rfl, if_pos rfl, if_pos htmr]

theorem consumerTurn_tick {s : State} (h : s.popBusy = true) (hq : s.q = []) (htmr : s.popTmr ≠ 0) :
    consumerTurn s = .next { s with popTmr := s.popTmr - 1 } := by
  rw [consumerTurn, if_pos h, qEmpty_eq_true_of_q_nil hq, if_pos rfl, if_neg htmr, State.popTick]

/-- Settles O56: the consumer's turn at a tick of its clock, case by case of the sample. -/
theorem popSamplesOnceATick : Obligations.PopSamplesOnceATick := by
  intro s rest hin
  have hstep : step s = consumerTurn { s.clearPulses with inputs := rest } := step_input hin
  rw [hstep]
  exact ⟨fun h hq => consumerTurn_entry h hq, fun h hq htmr => consumerTurn_last h hq htmr,
    fun h hq htmr => consumerTurn_tick h hq htmr, fun h => consumerTurn_idle h⟩

/-! ### The other inputs -/

/-- An edge schedules both turns, the decoder's first on an empty queue. -/
theorem bothTurns_of_nil {s : State} (h : s.q = []) : bothTurns s = [.clkD, .clkC] := by
  rw [bothTurns, qEmpty_eq_true_of_q_nil h, if_pos rfl]

theorem bothTurns_of_ne_nil {s : State} (h : s.q ≠ []) : bothTurns s = [.clkC, .clkD] := by
  have hempty : s.qEmpty = false := by simp [State.qEmpty, h]
  rw [bothTurns, hempty]
  rfl

/-- The next step is an edge, with `rest` scheduled after it: a scheduled one, or the edge both sides share by themselves
while a pop is in progress. -/
def State.AtEdge (rest : List Input) (s : State) : Prop :=
  (s.inputs = [] ∧ s.popBusy = true ∧ rest = []) ∨ s.inputs = .clkBoth :: rest

theorem step_edge {s : State} {rest : List Input}
    (h : s.AtEdge rest) :
    step s = .next { s.clearPulses with inputs := bothTurns s ++ rest } := by
  rcases h with ⟨hin, hbusy, rfl⟩ | hin
  · rw [step_own hin, if_pos hbusy, applyInput, State.clearPulses_inputs, hin]
    rfl
  · exact step_input hin

/-- On an empty queue the decoder's turn of an edge comes first, so that its push can serve the pop (R180). -/
theorem step_edge_of_nil {s : State} {rest : List Input}
    (h : s.AtEdge rest) (hq : s.q = []) :
    step s = .next { s.clearPulses with inputs := .clkD :: .clkC :: rest } := by
  rw [step_edge h, bothTurns_of_nil hq]
  rfl

/-- On every other queue the consumer's turn comes first, so that a pop can make room (R180). -/
theorem step_edge_of_ne_nil {s : State} {rest : List Input}
    (h : s.AtEdge rest) (hq : s.q ≠ []) :
    step s = .next { s.clearPulses with inputs := .clkC :: .clkD :: rest } := by
  rw [step_edge h, bothTurns_of_ne_nil hq]
  rfl

theorem step_word {s : State} {c : Code} {rest : List Input} (h : s.inputs = .op c :: rest) :
    step s = runWord c { s.clearPulses with inputs := rest } := step_input h

theorem runWord_ok {c : Code} {i : Instr} (h : decode c = .ok i) (u : State) : runWord c u = runStep i u := by
  rw [runWord, h]

theorem runStep_own {i : Instr} (h : enclosingStep i = none) (u : State) : runStep i u = exec i u := by
  rw [runStep, h]

theorem runStep_part {i j : Instr} (h : enclosingStep i = some j) {u v : State} (hv : exec i u = .next v) :
    runStep i u = exec j u := by
  rw [runStep, h, hv]

theorem runStep_refused {i j : Instr} (h : enclosingStep i = some j) {u : State} {r : Refusal}
    (hr : exec i u = .refused r) : runStep i u = .refused r := by
  rw [runStep, h, hr]

/-- Settles O7: input by input; a word's operation runs by itself or inside the step it is part of. -/
theorem stepRunsTheDecodedOperation : Obligations.StepRunsTheDecodedOperation := by
  intro s rest u
  refine ⟨fun c i hin hdec => ?word, fun c e hin hdec => ?undecodable, fun t hin => ?popStart, fun p hin => step_input hin,
    fun hin => ⟨fun hq => step_edge_of_nil (.inr hin) hq, fun hq => step_edge_of_ne_nil (.inr hin) hq⟩,
    fun hin hbusy => ?ownEdge⟩
  case word =>
    rw [step_word hin, runWord_ok hdec]
    exact ⟨fun hi => runStep_own hi u, fun j v hj hv => runStep_part hj hv, fun j r hj hr => runStep_refused hj hr⟩
  case undecodable =>
    rw [step_word hin, runWord, hdec]
  case popStart =>
    have hstep : step s = require (!s.popBusy) .popInProgress (.next (u.beginPop t)) := step_input hin
    rw [hstep]
    exact ⟨fun hbusy => by rw [hbusy]; rfl, fun hbusy => by rw [hbusy]; rfl⟩
  case ownEdge =>
    have hown : s.AtEdge [] := .inl ⟨hin, hbusy, rfl⟩
    exact ⟨fun hq => step_edge_of_nil hown hq, fun hq => step_edge_of_ne_nil hown hq⟩

/-- Settles O2: the registers that R260 resets take the values of `State.reset`; a reset of one side has no step. -/
theorem resetEventFromAnyState : Obligations.ResetEventFromAnyState := by
  intro s rest
  refine ⟨fun hin => ?both, fun hin => step_input hin, fun hin => step_input hin⟩
  case both =>
    have hwr : (State.applyReset { s.clearPulses with inputs := rest }).wrPtr = 0 := wrPtr_eq_rdPtr_of_q_nil rfl
    refine ⟨_, step_input hin, ?_⟩
    exact ⟨rfl, rfl, rfl, rfl, rfl, rfl, rfl, rfl, rfl, hwr, rfl, rfl, rfl, rfl, rfl, rfl,
      popDone_eq_false_of_popPort_low rfl, rfl, rfl, rfl⟩

end Sys2Proof.Machine
end

section
/-! PROOFS. Runs of the decoder alone (44_decode_loop.md R211, 43_dispatch_fifo.md R171): a run as its steps, the turns of
the decoder one after the other, and the runs of known length: a key press, a Repeat frame, a push on a full queue. -/

namespace Sys2Proof.Machine

/-! ### Runs -/

theorem Core.run_succ {M : Host.Core} {s t : M.State} (h : M.step s = .next t) (k : Nat) :
    M.run (k + 1) s = M.run k t := by
  rw [Host.Core.run, h]

/-- A run of any machine goes on from where a shorter one ended. -/
theorem Core.run_add {M : Host.Core} {s t : M.State} {k : Nat} (h : M.run k s = .next t) (m : Nat) :
    M.run (k + m) s = M.run m t := by
  induction k generalizing s with
  | zero =>
    obtain rfl : s = t := Host.Outcome.next.inj h
    rw [Nat.zero_add]
  | succ k ih =>
    cases hstep : M.step s with
    | next u =>
      rw [Core.run_succ hstep] at h
      rw [Nat.add_right_comm, Core.run_succ hstep, ih h]
    | fault r =>
      rw [Host.Core.run, hstep] at h
      cases h
    | refused r =>
      rw [Host.Core.run, hstep] at h
      cases h

theorem run_zero (s : State) : Sys2Proof.core.run 0 s = .next s := rfl

theorem run_succ {s t : State} (h : step s = .next t) (k : Nat) :
    Sys2Proof.core.run (k + 1) s = Sys2Proof.core.run k t :=
  Core.run_succ (M := Sys2Proof.core) h k

theorem run_add {s t : State} {k : Nat} (h : Sys2Proof.core.run k s = .next t) (m : Nat) :
    Sys2Proof.core.run (k + m) s = Sys2Proof.core.run m t :=
  Core.run_add (M := Sys2Proof.core) h m

/-! ### The turns of the decoder -/

/-- The state a turn starts on: the pulses of the last step low, and `rest` left of the inputs. -/
def State.beginWith (rest : List Input) (s : State) : State := { s.clearPulses with inputs := rest }

@[simp] theorem State.beginWith_q (s : State) (rest : List Input) : (s.beginWith rest).q = s.q := rfl
@[simp] theorem State.beginWith_inputs (s : State) (rest : List Input) : (s.beginWith rest).inputs = rest := rfl
@[simp] theorem State.beginWith_pendCmd (s : State) (rest : List Input) : (s.beginWith rest).pendCmd = s.pendCmd := rfl
@[simp] theorem State.beginWith_trace (s : State) (rest : List Input) : (s.beginWith rest).trace = s.trace := rfl

theorem step_clkD {s : State} {rest : List Input} (h : s.inputs = .clkD :: rest) :
    step s = decoderTurn (s.beginWith rest) := step_input h

theorem step_clkC {s : State} {rest : List Input} (h : s.inputs = .clkC :: rest) :
    step s = consumerTurn (s.beginWith rest) := step_input h

/-- The state the decoder's next turn starts on, whether its tick is scheduled or it is alone. -/
def State.beginTurn (s : State) : State := s.beginWith s.inputs.tail

theorem step_of_decoderTurns {s : State} {n : Nat} (h : s.DecoderTurns (n + 1)) : step s = decoderTurn s.beginTurn := by
  rcases h with ⟨hin, hbusy⟩ | ⟨rest, hin⟩
  · have hbegin : s.beginTurn = s.clearPulses := by
      rw [State.beginTurn, State.beginWith, hin, List.tail_nil, ← hin]
      rfl
    rw [step_alone hin hbusy, hbegin]
  · have htail : s.inputs.tail = List.replicate n .clkD ++ rest := by rw [hin]; rfl
    rw [State.beginTurn, htail]
    exact step_clkD hin

/-- What FSM and SLOT select is an operation of the loop. -/
theorem mem_loopOperations_of_decodeFsm {f : BitVec 3} {x : BitVec 2} {i : Instr} (h : decodeFsm f x = .ok i) :
    i ∈ loopOperations := by
  have among : ∀ f x, ∀ i ∈ (decodeFsm f x).toOption, i ∈ loopOperations := by decide
  exact among f x i (by rw [h]; rfl)

/-- No operation of the loop touches the consumer's side or the schedule. -/
theorem schedule_effect {i : Instr} {s t : State} (hi : i ∈ loopOperations) (he : Effect s i t) :
    t.inputs = s.inputs ∧ t.popBusy = s.popBusy ∧ t.popTmr = s.popTmr := by
  cases he with
  | returns | pushOk | pushTimeout | arm | deliver | initSucceeds | initFails | takeFrame | waitExpire | decodes
  | decodeEnds | resolves | misses | dispatches | timesOut | rearm | halted => exact ⟨rfl, rfl, rfl⟩
  | popOk | popEmpty => simp [loopOperations] at hi

theorem decoderTurn_schedule {s t : State} (h : decoderTurn s = .next t) :
    t.inputs = s.inputs ∧ t.popBusy = s.popBusy ∧ t.popTmr = s.popTmr := by
  rcases decoderTurn_next h with ⟨-, rfl⟩ | ⟨i, hi, he⟩
  · unfold State.decoderTick
    split <;> exact ⟨rfl, rfl, rfl⟩
  · exact schedule_effect (mem_loopOperations_of_decodeFsm hi) (effect_of_exec he)

/-- One of the decoder's turns, and the turns that are left. -/
theorem run_turn {s t : State} {n : Nat} (hturns : s.DecoderTurns (n + 1)) (h : decoderTurn s.beginTurn = .next t) :
    t.DecoderTurns n ∧ ∀ k, Sys2Proof.core.run (k + 1) s = Sys2Proof.core.run k t := by
  obtain ⟨hin, hbusy, -⟩ := decoderTurn_schedule h
  refine ⟨?_, run_succ ((step_of_decoderTurns hturns).trans h)⟩
  rw [State.beginTurn, State.beginWith_inputs] at hin
  rcases hturns with ⟨hnil, hidle⟩ | ⟨rest, hrest⟩
  · exact .inl ⟨by rw [hin, hnil]; rfl, hbusy.trans hidle⟩
  · exact .inr ⟨rest, by rw [hin, hrest]; rfl⟩

/-! ### A key press and a Repeat frame -/

theorem turn_takeFrame {s : State} (hfsm : s.fsm = .wait) (hslot : s.slot = .full) :
    decoderTurn s = .next { s with fsm := .decode } := by
  rw [decoderTurn_wait_full hfsm hslot, exec_takeFrame hfsm hslot]

/-- The turn in S_DECODE concludes with the result of DECODE. -/
theorem turn_decode {s : State} {r : DecodeResult} (hfsm : s.fsm = .decode)
    (hr : decodeAnyFrame s.fbCount.toNat s.fb s.cfg.variant = r) :
    ∃ a w x, decoderTurn s = .next (State.concludeDecode r { s with addrSr := a, wordSr := w, symIdx := x }) := by
  obtain ⟨a, w, x, hlatch⟩ := latchDecode_frame s.fbCount.toNat s
  exact ⟨a, w, x, by rw [decoderTurn_decode hfsm, exec_runDecode hfsm, hr, hlatch]⟩

theorem turn_rearm {s : State} (hfsm : s.fsm = .rearm) : decoderTurn s = .next s.returnFromOutcome := by
  rw [decoderTurn_rearm hfsm, exec_rearm hfsm]

theorem turn_resolve {s : State} {k : Command} (hfsm : s.fsm = .resolve)
    (hk : resolveCommand s.csActive s.resCmd = some k) : decoderTurn s = .next (s.lookupHits k) := by
  rw [decoderTurn_resolve hfsm, exec_runResolve_of_some hfsm hk]

theorem turn_push {s : State} (hfsm : s.fsm = .push) (hroom : s.q.length < 16) :
    decoderTurn s = .next ((s.enqueue s.pendCmd).raise .dispatched) := by
  rw [decoderTurn_push hfsm (.inl hroom.ne), exec_runPush_of_room hfsm hroom]

/-- Settles O53: take the Frame, decode it, find its Command, push it, re-arm. -/
theorem keyPressReachesTheQueue : Obligations.KeyPressReachesTheQueue := by
  intro s a c k old hfsm hslot hturns hcount hfb hroom hkey honly
  have hresult : decodeAnyFrame s.fbCount.toNat s.fb s.cfg.variant = .normal a c := by
    rw [hcount, decodeAnyFrame_34, hfb, encFrame, decodeNormalFrame_normalFrame, commandWord, highByte_commandWord,
      lowByte_commandWord, if_pos rfl]
  obtain ⟨hturns, take⟩ := run_turn hturns (turn_takeFrame hfsm hslot)
  obtain ⟨sa, sw, x, hdecode⟩ := turn_decode (s := State.beginTurn { s.beginTurn with fsm := .decode }) rfl hresult
  obtain ⟨hturns, decode⟩ := run_turn hturns hdecode
  obtain ⟨hturns, resolve⟩ := run_turn hturns (turn_resolve rfl (resolveCommand_of_key hkey honly))
  obtain ⟨hturns, push⟩ := run_turn hturns (turn_push rfl hroom)
  obtain ⟨-, rearm⟩ := run_turn hturns (turn_rearm rfl)
  refine ⟨_, (take 4).trans ((decode 3).trans ((resolve 2).trans ((push 1).trans (rearm 0)))), rfl, rfl, rfl, rfl, rfl, rfl,
    rfl, ?_⟩
  change s.trace ++ [.pushed k] ++ [.outcome .dispatched (some (a, c)) (some k)] ++ [.arm] = _
  rw [List.append_assoc, List.append_assoc]
  rfl

/-- Settles O54: take the Frame, decode it, re-arm. -/
theorem repeatKeepsQueueAndResult : Obligations.RepeatKeepsQueueAndResult := by
  intro s hfsm hslot hturns hcount hrpt
  have hresult : decodeAnyFrame s.fbCount.toNat s.fb s.cfg.variant = .repeated := by
    rw [hcount, decodeAnyFrame_2, decodeRepeatFrame_eq_ite, if_pos hrpt]
  obtain ⟨hturns, take⟩ := run_turn hturns (turn_takeFrame hfsm hslot)
  obtain ⟨sa, sw, x, hdecode⟩ := turn_decode (s := State.beginTurn { s.beginTurn with fsm := .decode }) rfl hresult
  obtain ⟨hturns, decode⟩ := run_turn hturns hdecode
  obtain ⟨-, rearm⟩ := run_turn hturns (turn_rearm rfl)
  refine ⟨_, (take 2).trans ((decode 1).trans (rearm 0)), rfl, rfl, rfl, rfl, rfl, rfl, rfl, ?_⟩
  exact List.append_assoc s.trace _ _

/-! ### A push on a full queue (R171) -/

theorem clearPulses_eq_self {s : State} (hcap : s.capArm = false) (hstrobe : s.outcStrobe = false)
    (hport : s.popPort = .low) : s.clearPulses = s := by
  cases s
  cases hcap
  cases hstrobe
  cases hport
  rfl

theorem toNat_sub_one {x : Ticks} (h : x ≠ 0) : (x - 1).toNat = x.toNat - 1 := by
  bv_omega

/-- The state of a push on a full queue after `k` ticks. -/
def State.pushTicked (k : Nat) (s : State) : State :=
  { s with pushTmr := s.pushTmr - BitVec.ofNat 32 k, inputs := s.inputs.drop k }

/-- One tick and `k` more. -/
theorem pushTicked_pushTicked (k : Nat) (s : State) : (s.pushTicked 1).pushTicked k = s.pushTicked (k + 1) := by
  have htmr : s.pushTmr - BitVec.ofNat 32 1 - BitVec.ofNat 32 k = s.pushTmr - BitVec.ofNat 32 (k + 1) := by
    rw [BitVec.ofNat_add]
    ring
  simp only [State.pushTicked, htmr, List.drop_drop, Nat.add_comm 1 k]

/-- A sample of a push on a full queue that is not the last one. -/
theorem turn_pushTick {s : State} (hfsm : s.fsm = .push) (hfull : s.q.length = 16) (hlow : s.clearPulses = s)
    (htmr : s.pushTmr ≠ 0) : decoderTurn s.beginTurn = .next (s.pushTicked 1) := by
  rw [decoderTurn_push_tick (s := s.beginTurn) hfsm hfull htmr, State.pushTicked, List.drop_one, State.beginTurn,
    State.beginWith, hlow]
  rfl

/-- While the ticks last, a push on a full queue only counts (R171). -/
theorem run_pushTicks {n : Nat} (k : Nat) {s : State} (hfsm : s.fsm = .push) (hfull : s.q.length = 16)
    (hturns : s.DecoderTurns (k + n)) (hlow : s.clearPulses = s) (hk : k ≤ s.pushTmr.toNat) :
    Sys2Proof.core.run k s = .next (s.pushTicked k) ∧ (s.pushTicked k).DecoderTurns n := by
  induction k generalizing s with
  | zero =>
    have hsame : s.pushTicked 0 = s := by simp [State.pushTicked]
    rw [Nat.zero_add] at hturns
    rw [hsame]
    exact ⟨rfl, hturns⟩
  | succ k ih =>
    have htmr : s.pushTmr ≠ 0 := by
      rintro h
      simp [h] at hk
    rw [Nat.add_right_comm] at hturns
    obtain ⟨hleft, tick⟩ := run_turn hturns (turn_pushTick hfsm hfull hlow htmr)
    have hk' : k ≤ (s.pushTicked 1).pushTmr.toNat := by
      change k ≤ (s.pushTmr - 1).toNat
      rw [toNat_sub_one htmr]
      omega
    have hlow' : (s.pushTicked 1).clearPulses = s.pushTicked 1 := congrArg (State.pushTicked 1) hlow
    rw [tick, ← pushTicked_pushTicked k s]
    exact ih (s := s.pushTicked 1) hfsm hfull hleft hlow' hk'

/-- The last sample of a push on a full queue (R171, R206). -/
theorem turn_pushLast {s : State} (hfsm : s.fsm = .push) (hfull : s.q.length = 16) (htmr : s.pushTmr = 0) :
    decoderTurn s = .next (s.failPush.raise .dispatchTimeout) := by
  rw [decoderTurn_push hfsm (.inr htmr), exec_runPush_of_full hfsm hfull]

theorem run_pushLast {s : State} (hfsm : s.fsm = .push) (hfull : s.q.length = 16) (htmr : s.pushTmr = 0)
    (hturns : s.DecoderTurns 1) :
    ∃ t, Sys2Proof.core.run 1 s = .next t ∧ t.lastOutcome = .dispatchTimeout ∧ t.fsm = .rearm ∧ t.q = s.q :=
  ⟨_, (run_turn hturns (turn_pushLast (s := s.beginTurn) hfsm hfull htmr)).2 0, rfl, rfl, rfl⟩

/-- Settles O55: after PUSH_TMR ticks the timer is 0 and the queue still full, so the next sample is the last. -/
theorem fullQueueTimesOutAfterItsSamples : Obligations.FullQueueTimesOutAfterItsSamples := by
  intro s hfsm hfull hturns hcap hstrobe hport
  have hlow : s.clearPulses = s := clearPulses_eq_self hcap hstrobe hport
  refine ⟨fun k hk => (run_pushTicks (n := s.pushTmr.toNat + 1 - k) k hfsm hfull ?_ hlow hk).1, ?_⟩
  · rwa [Nat.add_sub_cancel' (by omega)]
  · obtain ⟨hrun, hlast⟩ := run_pushTicks (n := 1) s.pushTmr.toNat hfsm hfull hturns hlow le_rfl
    have hzero : (s.pushTicked s.pushTmr.toNat).pushTmr = 0 := by simp [State.pushTicked]
    rw [run_add hrun]
    exact run_pushLast hfsm hfull hzero hlast

end Sys2Proof.Machine
end

section
/-! PROOFS. Edges that both sides share (43_dispatch_fifo.md R180, R184; 44_decode_loop.md R213, R215): an edge is three
steps, one of which is the decoder's turn and one the consumer's, in either order. The pop in progress completes because
each edge is a sample of it; the loop comes back to S_WAIT because each edge is a turn of it. -/

namespace Sys2Proof.Machine

/-! ### The consumer's turn in an edge -/

/-- A sample of a pop in progress ends it, or counts and leaves the rest (R171). -/
theorem consumerTurn_of_busy {s : State} (hbusy : s.popBusy = true) :
    ∃ t, consumerTurn s = .next t ∧ ((t.popBusy = false ∧ t.popDone = true) ∨
      (s.q = [] ∧ s.popTmr ≠ 0 ∧ t = { s with popTmr := s.popTmr - 1 })) := by
  by_cases hq : s.q = []
  · by_cases htmr : s.popTmr = 0
    · exact ⟨_, (consumerTurn_last hbusy hq htmr).trans (exec_popEmpty_of_nil hq), .inl ⟨rfl, rfl⟩⟩
    · exact ⟨_, consumerTurn_tick hbusy hq htmr, .inr ⟨hq, htmr, rfl⟩⟩
  · obtain ⟨c, rest, hcons⟩ := List.exists_cons_of_ne_nil hq
    exact ⟨_, (consumerTurn_entry hbusy hq).trans (exec_popOk_of_cons hcons), .inl ⟨rfl, rfl⟩⟩

theorem consumerTurn_total (s : State) : ∃ t, consumerTurn s = .next t := by
  cases hbusy : s.popBusy with
  | false => exact ⟨s, consumerTurn_idle hbusy⟩
  | true =>
    obtain ⟨t, ht, -⟩ := consumerTurn_of_busy hbusy
    exact ⟨t, ht⟩

/-- Two states stand alike in the loop: FSM, SLOT, CFG and the push timer are the same. -/
def SameLoop (s t : State) : Prop := t.fsm = s.fsm ∧ t.slot = s.slot ∧ t.cfg = s.cfg ∧ t.pushTmr = s.pushTmr

/-- The consumer's turn starts no pop and touches neither the loop nor the schedule. -/
theorem consumerTurn_keeps {s t : State} (h : consumerTurn s = .next t) :
    SameLoop s t ∧ t.inputs = s.inputs ∧ (t.popBusy = true → s.popBusy = true) := by
  rcases consumerTurn_next h with he | he | rfl | rfl
  · obtain ⟨c, rest, -, rfl⟩ := execPopOk_next he
    exact ⟨⟨rfl, rfl, rfl, rfl⟩, rfl, fun hb => (nomatch hb)⟩
  · obtain ⟨-, rfl⟩ := execPopEmpty_next he
    exact ⟨⟨rfl, rfl, rfl, rfl⟩, rfl, fun hb => (nomatch hb)⟩
  · exact ⟨⟨rfl, rfl, rfl, rfl⟩, rfl, id⟩
  · exact ⟨⟨rfl, rfl, rfl, rfl⟩, rfl, id⟩

/-! ### The decoder's turn in an edge -/

/-- In S_PUSH the decoder's turn dispatches, counts or gives up (R206). -/
theorem turn_push_cases {s : State} (hfsm : s.fsm = .push) (hq : s.q.length ≤ 16) :
    (s.pushTmr ≠ 0 ∧ decoderTurn s = .next { s with pushTmr := s.pushTmr - 1 }) ∨
      ∃ (u : State) (o : OutcomeCode), decoderTurn s = .next (u.raise o) ∧ fsmAfter o u.fsm = .rearm ∧ u.slot = s.slot := by
  rcases hq.lt_or_eq with hroom | hfull
  · exact .inr ⟨_, _, turn_push hfsm hroom, rfl, rfl⟩
  · by_cases htmr : s.pushTmr = 0
    · exact .inr ⟨_, _, turn_pushLast hfsm hfull htmr, rfl, rfl⟩
    · exact .inl ⟨htmr, decoderTurn_push_tick hfsm hfull htmr⟩

/-- A state that meets the invariant has an enabled decoder step (R215). -/
theorem decoderTurn_total {s : State} (h : s.Inv) : ∃ t, decoderTurn s = .next t := by
  have hslot := h.slot
  have hq : s.q.length ≤ 16 := ((memory_wf_iff s).1 h.memory).1
  cases hfsm : s.fsm with
  | init =>
    rw [hfsm] at hslot
    rw [decoderTurn_init hfsm]
    cases hok : codesetIsOk s.rom s.ports.codesetIdx with
    | true => exact ⟨_, exec_init_of_ok hfsm hok (of_decide_eq_true hslot)⟩
    | false => exact ⟨_, exec_init_of_not_ok hfsm hok⟩
  | wait =>
    cases hx : s.slot with
    | idle =>
      rw [hfsm, hx] at hslot
      cases hslot
    | armed =>
      by_cases htmr : s.waitTmr = 0
      · rw [decoderTurn_wait_expired hfsm hx htmr, exec_waitExpire hfsm, decide_eq_true hx, require_true]
        exact ⟨_, rfl⟩
      · exact ⟨_, decoderTurn_wait_tick hfsm hx htmr⟩
    | full => exact ⟨_, turn_takeFrame hfsm hx⟩
  | decode => exact ⟨_, (decoderTurn_decode hfsm).trans (exec_runDecode hfsm)⟩
  | resolve =>
    rw [decoderTurn_resolve hfsm]
    cases hr : resolveCommand s.csActive s.resCmd with
    | none => exact ⟨_, exec_runResolve_of_none hfsm hr⟩
    | some k => exact ⟨_, exec_runResolve_of_some hfsm hr⟩
  | push =>
    rcases turn_push_cases hfsm hq with ⟨-, ht⟩ | ⟨u, o, ht, -⟩
    · exact ⟨_, ht⟩
    · exact ⟨_, ht⟩
  | rearm => exact ⟨_, turn_rearm hfsm⟩
  | halt => exact ⟨_, (decoderTurn_halt hfsm).trans (exec_halted hfsm)⟩

theorem inv_beginWith {s : State} (rest : List Input) (h : s.Inv) : (s.beginWith rest).Inv :=
  inv_turns (sameButTurns_begin s rest) h

/-! ### The three steps of an edge -/

/-- With a pop in progress and nothing scheduled three steps take the turn of each side, the decoder's first on an empty
queue and the consumer's first on every other. -/
theorem edge_steps {s : State} (hinv : s.Inv) (hin : s.inputs = []) (hbusy : s.popBusy = true) :
    ∃ d t : State, d.Inv ∧ t.Inv ∧ t.inputs = [] ∧
      Sys2Proof.core.run 2 s = .next d ∧ Sys2Proof.core.run 3 s = .next t ∧
      ((s.q = [] ∧ decoderTurn (s.beginWith [.clkC]) = .next d ∧ consumerTurn (d.beginWith []) = .next t) ∨
        (s.q ≠ [] ∧ consumerTurn (s.beginWith [.clkD]) = .next d ∧ decoderTurn (d.beginWith []) = .next t)) := by
  have hedge : s.AtEdge [] := .inl ⟨hin, hbusy, rfl⟩
  have runs : ∀ {e d t : State}, step s = .next e → step e = .next d → step d = .next t →
      d.Inv ∧ t.Inv ∧ Sys2Proof.core.run 2 s = .next d ∧ Sys2Proof.core.run 3 s = .next t := by
    intro e d t hfirst hsecond hthird
    have hinvD : d.Inv := everyStepKeepsTheInvariant _ _ (everyStepKeepsTheInvariant _ _ hinv hfirst) hsecond
    refine ⟨hinvD, everyStepKeepsTheInvariant _ _ hinvD hthird, ?_, ?_⟩
    · rw [run_succ hfirst, run_succ hsecond, run_zero]
    · rw [run_succ hfirst, run_succ hsecond, run_succ hthird, run_zero]
  by_cases hq : s.q = []
  · obtain ⟨d, hd⟩ := decoderTurn_total (inv_beginWith [.clkC] hinv)
    obtain ⟨t, ht⟩ := consumerTurn_total (d.beginWith [])
    have hleft : d.inputs = [.clkC] := (decoderTurn_schedule hd).1
    have hdone : t.inputs = [] := (consumerTurn_keeps ht).2.1
    have hsecond : step (s.beginWith [.clkD, .clkC]) = .next d := (step_clkD rfl).trans hd
    obtain ⟨hinvD, hinvT, hrun2, hrun3⟩ := runs (step_edge_of_nil hedge hq) hsecond ((step_clkC hleft).trans ht)
    exact ⟨d, t, hinvD, hinvT, hdone, hrun2, hrun3, .inl ⟨hq, hd, ht⟩⟩
  · obtain ⟨d, hd⟩ := consumerTurn_total (s.beginWith [.clkD])
    have hleft : d.inputs = [.clkD] := (consumerTurn_keeps hd).2.1
    have hfirst : step s = .next (s.beginWith [.clkC, .clkD]) := step_edge_of_ne_nil hedge hq
    have hsecond : step (s.beginWith [.clkC, .clkD]) = .next d := (step_clkC rfl).trans hd
    have hinvD : d.Inv := everyStepKeepsTheInvariant _ _ (everyStepKeepsTheInvariant _ _ hinv hfirst) hsecond
    obtain ⟨t, ht⟩ := decoderTurn_total (inv_beginWith [] hinvD)
    have hdone : t.inputs = [] := (decoderTurn_schedule ht).1
    obtain ⟨-, hinvT, hrun2, hrun3⟩ := runs hfirst hsecond ((step_clkD hleft).trans ht)
    exact ⟨d, t, hinvD, hinvT, hdone, hrun2, hrun3, .inr ⟨hq, hd, ht⟩⟩

/-! ### The pop in progress (R184) -/

/-- An edge ends the pop in progress within its three steps, or is a tick of its timer. -/
theorem edge_samples_pop {s : State} (hinv : s.Inv) (hin : s.inputs = []) (hbusy : s.popBusy = true) :
    (∃ (k : Nat) (t : State), k ≤ 3 ∧ Sys2Proof.core.run k s = .next t ∧ t.popBusy = false ∧ t.popDone = true) ∨
      ∃ t : State, Sys2Proof.core.run 3 s = .next t ∧ t.Inv ∧ t.inputs = [] ∧ t.popBusy = true ∧
        s.popTmr ≠ 0 ∧ t.popTmr = s.popTmr - 1 := by
  obtain ⟨d, t, -, hinvT, hinT, hrun2, hrun3, ⟨-, hdec, hcon⟩ | ⟨hq, hcon, -⟩⟩ := edge_steps hinv hin hbusy
  · obtain ⟨-, hbusyD, htmrD⟩ := decoderTurn_schedule hdec
    obtain ⟨t', ht', hsample⟩ := consumerTurn_of_busy (s := d.beginWith []) (hbusyD.trans hbusy)
    obtain rfl := Host.Outcome.next.inj (hcon.symm.trans ht')
    rcases hsample with ⟨hdone, hport⟩ | ⟨-, htmr, rfl⟩
    · exact .inl ⟨3, t, le_rfl, hrun3, hdone, hport⟩
    · exact .inr ⟨_, hrun3, hinvT, hinT, hbusyD.trans hbusy, fun hlast => htmr (htmrD.trans hlast),
        congrArg (· - 1) htmrD⟩
  · obtain ⟨d', hd', hsample⟩ := consumerTurn_of_busy (s := s.beginWith [.clkD]) hbusy
    obtain rfl := Host.Outcome.next.inj (hcon.symm.trans hd')
    rcases hsample with ⟨hdone, hport⟩ | ⟨hempty, -⟩
    · exact .inl ⟨2, d, by decide, hrun2, hdone, hport⟩
    · exact absurd hempty hq

theorem pop_completes (n : Nat) {s : State} (hinv : s.Inv) (hin : s.inputs = []) (hbusy : s.popBusy = true)
    (htmr : s.popTmr.toNat = n) :
    ∃ k t, k ≤ 3 * (n + 1) ∧ Sys2Proof.core.run k s = .next t ∧ t.popBusy = false ∧ t.popDone = true := by
  induction n generalizing s with
  | zero =>
    rcases edge_samples_pop hinv hin hbusy with ⟨k, t, hk, hdone⟩ | ⟨t, -, -, -, -, hticks, -⟩
    · exact ⟨k, t, hk, hdone⟩
    · exact absurd (BitVec.eq_of_toNat_eq htmr) hticks
  | succ n ih =>
    rcases edge_samples_pop hinv hin hbusy with ⟨k, t, hk, hdone⟩ | ⟨u, hrun, hinvU, hinU, hbusyU, hticks, htick⟩
    · exact ⟨k, t, by omega, hdone⟩
    · have hleft : u.popTmr.toNat = n := by
        rw [htick, toNat_sub_one hticks, htmr]
        rfl
      obtain ⟨k, t, hk, hrest, hdone⟩ := ih hinvU hinU hbusyU hleft
      exact ⟨3 + k, t, by omega, (run_add hrun k).trans hrest, hdone⟩

/-- Settles O52: each edge is a sample of the pop, and the last sample ends it. -/
theorem popInProgressCompletes : Obligations.PopInProgressCompletes :=
  fun _ hinv hin hbusy => pop_completes _ hinv hin hbusy rfl

/-! ### The way back to S_WAIT (R213) -/

/-- The capture is armed again and the decoder waits. -/
def State.Waiting (s : State) : Prop := s.fsm = .wait ∧ s.slot = .armed

/-- A Frame is in the slot of a running decoder. -/
def State.Cycling (s : State) : Prop := s.phase = .run ∧ s.slot = .full

/-- The turns a cycle takes at most until the capture is armed again: one for each state it passes, and the ticks of the
push timer. -/
def State.turnsLeft (s : State) : Nat :=
  match s.fsm with
  | .wait => s.cfg.pushTimeout.toNat + 5
  | .decode => s.cfg.pushTimeout.toNat + 4
  | .resolve => s.cfg.pushTimeout.toNat + 3
  | .push => s.pushTmr.toNat + 2
  | .rearm => 1
  | .init => 0
  | .halt => 0

/-- A turn brought the cycle to its end, or nearer to it. -/
def Progress (s t : State) : Prop := t.Waiting ∨ (t.Cycling ∧ t.turnsLeft < s.turnsLeft)

theorem SameLoop.turnsLeft {s t : State} (h : SameLoop s t) : t.turnsLeft = s.turnsLeft := by
  obtain ⟨hfsm, -, hcfg, htmr⟩ := h
  rw [State.turnsLeft, State.turnsLeft, hfsm, hcfg, htmr]

theorem SameLoop.trans {s t u : State} (h : SameLoop s t) (h' : SameLoop t u) : SameLoop s u :=
  ⟨h'.1.trans h.1, h'.2.1.trans h.2.1, h'.2.2.1.trans h.2.2.1, h'.2.2.2.trans h.2.2.2⟩

theorem SameLoop.cycling {s t : State} (h : SameLoop s t) (hs : s.Cycling) : t.Cycling := by
  obtain ⟨hfsm, hslot, -, -⟩ := h
  obtain ⟨hrun, hfull⟩ := hs
  refine ⟨?_, hslot.trans hfull⟩
  rwa [State.phase, hfsm]

theorem SameLoop.progress {s t u : State} (h : SameLoop t u) (hp : Progress s t) : Progress s u := by
  rcases hp with ⟨hfsm, hslot⟩ | ⟨hcycling, hless⟩
  · exact .inl ⟨h.1.trans hfsm, h.2.1.trans hslot⟩
  · exact .inr ⟨h.cycling hcycling, h.turnsLeft ▸ hless⟩

theorem SameLoop.progress_from {s t u : State} (h : SameLoop s t) (hp : Progress t u) : Progress s u :=
  hp.imp id fun ⟨hcycling, hless⟩ => ⟨hcycling, h.turnsLeft ▸ hless⟩

/-- An outcome of a Frame leaves one turn, that of REARM. -/
theorem progress_raise {s u : State} {o : OutcomeCode} (hfsm : fsmAfter o u.fsm = .rearm) (hslot : u.slot = .full)
    (hmany : 1 < s.turnsLeft) : Progress s (u.raise o) := by
  refine .inr ⟨⟨?_, hslot⟩, ?_⟩
  · rw [State.phase, State.raise_fsm, hfsm]
  · rw [State.turnsLeft, State.raise_fsm, hfsm]
    exact hmany

/-- A turn of a running decoder with a Frame in the slot is progress. -/
theorem decoderTurn_progress {s t : State} (h : s.Cycling) (hq : s.q.length ≤ 16) (ht : decoderTurn s = .next t) :
    Progress s t := by
  obtain ⟨hrun, hslot⟩ := h
  have ends : ∀ {u : State}, decoderTurn s = .next u → Progress s u → Progress s t := by
    intro u hu hp
    rwa [Host.Outcome.next.inj (ht.symm.trans hu)]
  cases hfsm : s.fsm with
  | init | halt => simp [State.phase, hfsm] at hrun
  | wait =>
    refine ends (turn_takeFrame hfsm hslot) (.inr ⟨⟨rfl, hslot⟩, ?_⟩)
    simp [State.turnsLeft, hfsm]
  | decode =>
    obtain ⟨a, w, x, hu⟩ := turn_decode hfsm rfl
    refine ends hu ?_
    cases decodeAnyFrame s.fbCount.toNat s.fb s.cfg.variant with
    | normal a c => exact .inr ⟨⟨rfl, hslot⟩, by simp [State.turnsLeft, State.concludeDecode, hfsm]⟩
    | repeated | unsupportedLength | bitMismatch | checksumFailed =>
      exact progress_raise rfl hslot (by simp [State.turnsLeft, hfsm])
  | resolve =>
    cases hr : resolveCommand s.csActive s.resCmd with
    | none =>
      exact ends ((decoderTurn_resolve hfsm).trans (exec_runResolve_of_none hfsm hr))
        (progress_raise rfl hslot (by simp [State.turnsLeft, hfsm]))
    | some k => exact ends (turn_resolve hfsm hr) (.inr ⟨⟨rfl, hslot⟩, by simp [State.turnsLeft, hfsm]⟩)
  | push =>
    rcases turn_push_cases hfsm hq with ⟨htmr, hu⟩ | ⟨u, o, hu, hafter, hsame⟩
    · refine ends hu (.inr ⟨⟨hrun, hslot⟩, ?_⟩)
      have hless : (s.pushTmr - 1).toNat < s.pushTmr.toNat := by
        rw [toNat_sub_one htmr]
        exact Nat.sub_one_lt fun hzero => htmr (BitVec.eq_of_toNat_eq hzero)
      simpa [State.turnsLeft, hfsm] using hless
    · exact ends hu (progress_raise hafter (hsame.trans hslot) (by simp [State.turnsLeft, hfsm]))
  | rearm => exact ends (turn_rearm hfsm) (.inl ⟨rfl, rfl⟩)

/-- The steps that hold one turn of the decoder: one, or the three of an edge while a pop is in progress. -/
def State.stepsPerTurn (s : State) : Nat := if s.popBusy then 3 else 1

theorem stepsPerTurn_of_idle {s : State} (h : s.popBusy = false) : s.stepsPerTurn = 1 := by
  rw [State.stepsPerTurn, h, if_neg Bool.false_ne_true]

theorem stepsPerTurn_of_busy {s : State} (h : s.popBusy = true) : s.stepsPerTurn = 3 := by
  rw [State.stepsPerTurn, h, if_pos rfl]

theorem stepsPerTurn_le (s : State) : s.stepsPerTurn ≤ 3 := by
  unfold State.stepsPerTurn
  split <;> decide

/-- A turn on a state that stands in the loop as `s` does is progress from `s`. -/
theorem turn_progress {s u t : State} (hs : s.Cycling) (h : SameLoop s u) (hinv : u.Inv) (ht : decoderTurn u = .next t) :
    Progress s t :=
  h.progress_from (decoderTurn_progress (h.cycling hs) ((memory_wf_iff u).1 hinv.memory).1 ht)

theorem sameLoop_beginWith (s : State) (rest : List Input) : SameLoop s (s.beginWith rest) := ⟨rfl, rfl, rfl, rfl⟩

/-- One turn of the decoder, alone or within an edge. -/
theorem round_progress {s : State} (hinv : s.Inv) (hcycling : s.Cycling) (hin : s.inputs = []) :
    ∃ t : State, Sys2Proof.core.run s.stepsPerTurn s = .next t ∧ t.Inv ∧ t.inputs = [] ∧
      t.stepsPerTurn ≤ s.stepsPerTurn ∧ Progress s t := by
  cases hbusy : s.popBusy with
  | false =>
    have hturns : s.DecoderTurns 1 := .inl ⟨hin, hbusy⟩
    obtain ⟨t, ht⟩ := decoderTurn_total (inv_beginWith s.inputs.tail hinv)
    have hstep : step s = .next t := (step_of_decoderTurns hturns).trans ht
    obtain ⟨hinT, hbusyT, -⟩ := decoderTurn_schedule ht
    have hsteps : s.stepsPerTurn = 1 := stepsPerTurn_of_idle hbusy
    have hsame : t.stepsPerTurn = 1 := stepsPerTurn_of_idle (hbusyT.trans hbusy)
    rw [hsteps]
    exact ⟨t, run_succ hstep 0, everyStepKeepsTheInvariant s t hinv hstep, hinT.trans (congrArg List.tail hin), hsame.le,
      turn_progress hcycling (sameLoop_beginWith s _) (inv_beginWith _ hinv) ht⟩
  | true =>
    obtain ⟨d, t, hinvD, hinvT, hinT, -, hrun, hturns⟩ := edge_steps hinv hin hbusy
    rw [stepsPerTurn_of_busy hbusy]
    refine ⟨t, hrun, hinvT, hinT, stepsPerTurn_le t, ?_⟩
    rcases hturns with ⟨-, hdec, hcon⟩ | ⟨-, hcon, hdec⟩
    · have hfirst : Progress s d :=
        turn_progress hcycling (sameLoop_beginWith s _) (inv_beginWith _ hinv) hdec
      exact (consumerTurn_keeps hcon).1.progress ((sameLoop_beginWith d _).progress hfirst)
    · have hsame : SameLoop s (d.beginWith []) :=
        ((sameLoop_beginWith s _).trans (consumerTurn_keeps hcon).1).trans (sameLoop_beginWith d _)
      exact turn_progress hcycling hsame (inv_beginWith _ hinvD) hdec

theorem turnsLeft_pos {s : State} (h : s.Cycling) : 0 < s.turnsLeft := by
  obtain ⟨hrun, -⟩ := h
  unfold State.phase at hrun
  unfold State.turnsLeft
  cases hfsm : s.fsm <;> simp [hfsm] at hrun ⊢

/-- By induction on the turns that are left: each round is progress. -/
theorem cycle_returns (n : Nat) {s : State} (hinv : s.Inv) (hcycling : s.Cycling) (hin : s.inputs = [])
    (hn : s.turnsLeft ≤ n) :
    ∃ (k : Nat) (t : State), k ≤ s.stepsPerTurn * n ∧ Sys2Proof.core.run k s = .next t ∧ t.Waiting := by
  induction n generalizing s with
  | zero => exact absurd (turnsLeft_pos hcycling) (by omega)
  | succ n ih =>
    obtain ⟨u, hrun, hinvU, hinU, hsteps, hwaiting | ⟨hcyclingU, hless⟩⟩ := round_progress hinv hcycling hin
    · exact ⟨_, u, Nat.le_mul_of_pos_right _ (Nat.succ_pos n), hrun, hwaiting⟩
    · obtain ⟨k, t, hk, hrest, hwaiting⟩ := ih hinvU hcyclingU hinU (by omega)
      refine ⟨s.stepsPerTurn + k, t, ?_, (run_add hrun k).trans hrest, hwaiting⟩
      calc s.stepsPerTurn + k
        _ ≤ s.stepsPerTurn + u.stepsPerTurn * n := Nat.add_le_add_left hk _
        _ ≤ s.stepsPerTurn + s.stepsPerTurn * n := Nat.add_le_add_left (Nat.mul_le_mul_right n hsteps) _
        _ = s.stepsPerTurn * (n + 1) := by rw [Nat.mul_succ, Nat.add_comm]

/-- Settles O51: the turns that are left are at most one for each state of a cycle and the ticks of the push timer. -/
theorem loopReturnsToWait : Obligations.LoopReturnsToWait := by
  intro s hinv hrun hslot hin
  have hbound : s.turnsLeft ≤ 5 + max s.pushTmr.toNat s.cfg.pushTimeout.toNat := by
    unfold State.turnsLeft
    split <;> omega
  exact cycle_returns _ hinv ⟨hrun, hslot⟩ hin hbound

/-! ### One edge for a push and a pop (R180) -/

/-- The registers of a waiting push that its event reads, and what is scheduled. -/
def State.waitingPush (s : State) : Fsm × Command × BitVec 16 × BitVec 8 × List Input :=
  (s.fsm, s.pendCmd, s.resAddr, s.resCmd, s.inputs)

/-- The events of the push that waits in `s`. -/
def State.pushEvents (s : State) : List Event :=
  [.pushed s.pendCmd, .outcome .dispatched (some (s.resAddr, s.resCmd)) (some s.pendCmd)]

/-- A push with room, in the registers that the other turn of the edge and the trace read. -/
theorem turn_push_appends {u : State} (hfsm : u.fsm = .push) (hroom : u.q.length < 16) :
    ∃ t, decoderTurn u = .next t ∧ t.q = u.q ++ [u.pendCmd] ∧ t.lastOutcome = .dispatched ∧
      t.inputs = u.inputs ∧ t.popBusy = u.popBusy ∧ t.trace = u.trace ++ u.pushEvents :=
  ⟨_, turn_push hfsm hroom, rfl, rfl, rfl, rfl, List.append_assoc u.trace _ _⟩

/-- A pop of the head, in the registers that the other turn of the edge and the trace read. -/
theorem turn_pop_takes {u : State} {e : Command} {rest : List Command} (hbusy : u.popBusy = true)
    (hq : u.q = e :: rest) :
    ∃ t, consumerTurn u = .next t ∧ t.q = rest ∧ t.lastOutcome = u.lastOutcome ∧ t.popPort = .hit e ∧
      t.waitingPush = u.waitingPush ∧ t.trace = u.trace ++ [.popped e] :=
  ⟨_, (consumerTurn_entry hbusy (by simp [hq])).trans (exec_popOk_of_cons hq), rfl, rfl, rfl, rfl, rfl⟩

/-- The consumer's turn takes an entry, and the decoder's turn after it has room for the push that waits. -/
theorem pop_then_push {u : State} {e : Command} {rest : List Command} (hfsm : u.fsm = .push) (hbusy : u.popBusy = true)
    (hq : u.q = e :: rest) (hroom : rest.length < 16) (hin : u.inputs = [.clkD]) :
    ∃ d t, consumerTurn u = .next d ∧ step d = .next t ∧ t.q = rest ++ [u.pendCmd] ∧ t.lastOutcome = .dispatched ∧
      t.trace = u.trace ++ .popped e :: u.pushEvents := by
  obtain ⟨d, hpop, hqD, -, -, hwaiting, htraceD⟩ := turn_pop_takes hbusy hq
  simp only [State.waitingPush, Prod.mk.injEq] at hwaiting
  obtain ⟨hfsmD, hcmd, haddr, hres, hinD⟩ := hwaiting
  obtain ⟨t, hpush, hqT, houtcome, -, -, htrace⟩ :=
    turn_push_appends (u := d.beginWith []) (hfsmD.trans hfsm) (by rw [State.beginWith_q, hqD]; exact hroom)
  have hevents : (d.beginWith []).pushEvents = u.pushEvents := by
    rw [State.pushEvents, State.pushEvents, ← hcmd, ← haddr, ← hres]
    rfl
  refine ⟨d, t, hpop, (step_clkD (hinD.trans hin)).trans hpush, ?_, houtcome, ?_⟩
  · rw [hqT, State.beginWith_q, State.beginWith_pendCmd, hqD, hcmd]
  · rw [htrace, hevents, State.beginWith_trace, htraceD, List.append_assoc, List.singleton_append]

/-- The decoder's turn pushes the Command that waits, and the consumer's turn after it takes it. -/
theorem push_then_pop {u : State} (hfsm : u.fsm = .push) (hbusy : u.popBusy = true) (hq : u.q = [])
    (hin : u.inputs = [.clkC]) :
    ∃ d t, decoderTurn u = .next d ∧ step d = .next t ∧ t.q = [] ∧ t.lastOutcome = .dispatched ∧
      t.popPort = .hit u.pendCmd ∧ t.trace = u.trace ++ (u.pushEvents ++ [.popped u.pendCmd]) := by
  obtain ⟨d, hpush, hqD, houtcome, hinD, hbusyD, htraceD⟩ := turn_push_appends hfsm (by simp [hq])
  obtain ⟨t, hpop, hqT, hlast, hport, -, htrace⟩ :=
    turn_pop_takes (u := d.beginWith []) (hbusyD.trans hbusy) (by rw [State.beginWith_q, hqD, hq, List.nil_append])
  refine ⟨d, t, hpush, (step_clkC (hinD.trans hin)).trans hpop, hqT, hlast.trans houtcome, hport, ?_⟩
  rw [htrace, State.beginWith_trace, htraceD, List.append_assoc]

/-- Settles O57: the edge takes the turns in the order of R180, and the first turn serves the second. -/
theorem oneEdgeServesPushAndPop : Obligations.OneEdgeServesPushAndPop := by
  intro s hfsm hbusy hin
  have hedge : s.AtEdge [] := by
    rcases hin with hin | hin
    · exact .inr hin
    · exact .inl ⟨hin, hbusy, rfl⟩
  constructor
  · intro hfull
    obtain ⟨e, rest, hq⟩ : ∃ e rest, s.q = e :: rest := List.exists_cons_of_length_pos (by omega)
    have hroom : rest.length < 16 := by
      rw [hq, List.length_cons] at hfull
      omega
    obtain ⟨d, t, hpop, hpush, htq, hlast, htrace⟩ := pop_then_push (u := s.beginWith [.clkD]) hfsm hbusy hq hroom rfl
    have hsecond : step (s.beginWith [.clkC, .clkD]) = .next d := (step_clkC rfl).trans hpop
    refine ⟨t, e, rest, hq, ?_, htq, hlast, htrace⟩
    rw [run_succ (step_edge_of_ne_nil hedge (by simp [hq]))]
    exact (run_succ hsecond 1).trans (run_succ hpush 0)
  · intro hq
    obtain ⟨d, t, hpush, hpop, htq, hlast, hport, htrace⟩ := push_then_pop (u := s.beginWith [.clkC]) hfsm hbusy hq rfl
    have hsecond : step (s.beginWith [.clkD, .clkC]) = .next d := (step_clkD rfl).trans hpush
    refine ⟨t, ?_, htq, hlast, hport, htrace⟩
    rw [run_succ (step_edge_of_nil hedge hq)]
    exact (run_succ hsecond 1).trans (run_succ hpop 0)

end Sys2Proof.Machine
end
